-- ==== Sys2Proof/Word.lean ====
section
/-! DEFINITION. The word types of the CRC32 engine (00_scope.md R6, R7). -/

namespace Sys2Proof

/-- A `u32` (R7): a command word, an immediate word, a table entry, the polynomial, the seed and the running
state. Bit 0 is the least significant bit. -/
abbrev Word := BitVec 32

/-- A `u8` (R7): the byte operand `IMM8` and one byte of the response stream. -/
abbrev Byte := BitVec 8

end Sys2Proof
end

