-- ==== Sys2Proof/Config.lean ====
section
/-! DEFINITION. The parameters of the block (00_scope.md R6). Every one is fixed by the spec: "The model takes no
open parameter". There is no free value: every operation of the block is total (R8, R200). -/

namespace Sys2Proof.Config

/-- `POLY_DEFAULT` (R6, R74). -/
def polyDefault : Word := 0xEDB88320#32

/-- `SEED_DEFAULT` (R6, R74). -/
def seedDefault : Word := 0xFFFFFFFF#32

/-- `NTAB`, the number of table entries (R6, R50). It is an abbreviation, so that the type of the table is
`Vector Word 256`. -/
abbrev tableSize : Nat := 256

/-- The iterations of the table generator per entry (R6, R100). -/
def tableIterations : Nat := 8

/-- The words of the longest command (R70: one to three words). -/
def longestCommand : Nat := 3

/-- The lowest reserved cause code (R201: 4 to 15 are reserved). -/
def firstReservedCause : Nat := 4

end Sys2Proof.Config
end

