-- ==== Sys2Proof/Syntax.lean ====
section
/-! DEFINITION. The commands of the block (30_encoding.md R74, R75) and the lines of its assembler (R82 to R84). -/

namespace Sys2Proof

/-- The seven commands of revision 1, one constructor for each row of the opcode table (R75). The operands are
the raw values of the encoding: `IMM8` (R72) and the immediate words `I1`, `I2` (R73, R74). -/
inductive Instr where
  /-- NEW: construct with the default polynomial and seed (R101). -/
  | new
  /-- NEWP: construct with a given polynomial, `I1` (R102). -/
  | newp (poly : Word)
  /-- NEWPS: construct with a given polynomial, `I1`, and seed, `I2` (R103). -/
  | newps (poly seed : Word)
  /-- UPD: feed the byte `IMM8` into the running state (R120). -/
  | upd (b : Byte)
  /-- FIN: emit the digest (R140). -/
  | fin
  /-- RST: return the running state to the seed (R141). -/
  | rst
  /-- TABRD: emit the table entry at index `IMM8` (R160). -/
  | tabrd (i : Byte)
  deriving DecidableEq, Repr

/-- The seven defined values of the field `OP`, by name (R75). -/
inductive Opcode where
  | new | newp | newps | upd | fin | rst | tabrd
  deriving DecidableEq, Repr

/-- The operation code of a command (R75). -/
def Instr.opcode : Instr → Opcode
  | .new => .new
  | .newp _ => .newp
  | .newps _ _ => .newps
  | .upd _ => .upd
  | .fin => .fin
  | .rst => .rst
  | .tabrd _ => .tabrd

/-- One line of the assembler (R82 to R84). A number of the source text has no width of its own, so the operands
are natural numbers here and `AsmLine.wellFormed` says which of them fit. -/
inductive AsmLine where
  | new
  | newp (poly : Nat)
  | newps (poly seed : Nat)
  | upd (b : Nat)
  | fin
  | rst
  | tabrd (i : Nat)
  /-- `.word`: the word itself, not checked as a command (R82). -/
  | word (w : Nat)
  /-- The pseudo-instruction `upds` (R83). -/
  | upds (bytes : List Nat)
  /-- The pseudo-instruction `hash` (R84). -/
  | hash (bytes : List Nat)
  deriving DecidableEq, Repr

end Sys2Proof
end

