-- ==== Sys2Proof/Decode.lean ====
section
/-! DEFINITION. The command encoding (30_encoding.md): the fields of a command word, the opcode map, the decoder over
the words on the command port, and the encoder. The block receives whole words (R53), so the decoder reads a list
of words and no byte order occurs in it. -/

namespace Sys2Proof

/-- `OP`, bits 31:24 of the command word (R71). -/
def opField (w : Word) : Byte := w.extractLsb' 24 8

/-- `RSV`, bits 23:8 of the command word (R71). -/
def rsvField (w : Word) : BitVec 16 := w.extractLsb' 8 16

/-- `IMM8`, bits 7:0 of the command word (R71). -/
def imm8Field (w : Word) : Byte := w.extractLsb' 0 8

/-- The value of `OP` for each operation code (R75). -/
def Opcode.code : Opcode → Byte
  | .new => 0x01#8
  | .newp => 0x02#8
  | .newps => 0x03#8
  | .upd => 0x10#8
  | .fin => 0x20#8
  | .rst => 0x30#8
  | .tabrd => 0x40#8

/-- The operation code a value of `OP` stands for; the 249 other values are undefined (R75, R77). -/
def Opcode.ofByte (b : Byte) : Option Opcode :=
  if b = 0x01#8 then some .new
  else if b = 0x02#8 then some .newp
  else if b = 0x03#8 then some .newps
  else if b = 0x10#8 then some .upd
  else if b = 0x20#8 then some .fin
  else if b = 0x30#8 then some .rst
  else if b = 0x40#8 then some .tabrd
  else none

/-- `LEN(op)`: the length of the command in words, set by `OP` alone (R75, R80). -/
def Opcode.length : Opcode → Nat
  | .new => 1
  | .newp => 2
  | .newps => 3
  | .upd => 1
  | .fin => 1
  | .rst => 1
  | .tabrd => 1

/-- Whether `IMM8` is an operand: the data byte of UPD, the index of TABRD. For every other command it must be 0
(R71, R75). -/
def Opcode.takesByte : Opcode → Bool
  | .upd => true
  | .tabrd => true
  | .new => false
  | .newp => false
  | .newps => false
  | .fin => false
  | .rst => false

/-- The "match" column of R75. -/
def Opcode.pattern : Opcode → Word
  | .new => 0x01000000#32
  | .newp => 0x02000000#32
  | .newps => 0x03000000#32
  | .upd => 0x10000000#32
  | .fin => 0x20000000#32
  | .rst => 0x30000000#32
  | .tabrd => 0x40000000#32

/-- The "mask" column of R75. -/
def Opcode.mask : Opcode → Word
  | .new => 0xFFFFFFFF#32
  | .newp => 0xFFFFFFFF#32
  | .newps => 0xFFFFFFFF#32
  | .upd => 0xFFFFFF00#32
  | .fin => 0xFFFFFFFF#32
  | .rst => 0xFFFFFFFF#32
  | .tabrd => 0xFFFFFF00#32

/-- A field that must be 0 is not: `RSV` for UPD and TABRD, bits 23:0 for every other command (R78). -/
def reservedNonzero (op : Opcode) (w : Word) : Bool :=
  if op.takesByte then rsvField w != 0#16 else w.extractLsb' 0 24 != 0#24

/-- Why a command word encodes no command (R77, R78), in the order of the checks (R76). -/
inductive Rejection where
  | undefinedOpcode
  | reservedFieldNonzero
  deriving DecidableEq, Repr

/-- What the decoder reads from the words waiting on the command port (R76). -/
inductive Decoded where
  /-- No word is waiting. -/
  | noWord
  /-- The first word encodes no command. -/
  | rejected (why : Rejection) (w : Word)
  /-- The first word is a NEWP or NEWPS whose immediate words have not all arrived (R81). -/
  | incomplete
  /-- A whole command, and the words after it. -/
  | command (i : Instr) (rest : List Word)
  deriving DecidableEq, Repr

/-- The operands of an accepted command word `w`, taken from `IMM8` and from the words after it (R72 to R74).
Immediate words are raw: nothing in them is checked (R73). -/
def takeOperands (op : Opcode) (w : Word) (rest : List Word) : Decoded :=
  match op with
  | .new => .command .new rest
  | .newp =>
    match rest with
    | i1 :: rest' => .command (.newp i1) rest'
    | [] => .incomplete
  | .newps =>
    match rest with
    | i1 :: i2 :: rest' => .command (.newps i1 i2) rest'
    | [_] => .incomplete
    | [] => .incomplete
  | .upd => .command (.upd (imm8Field w)) rest
  | .fin => .command .fin rest
  | .rst => .command .rst rest
  | .tabrd => .command (.tabrd (imm8Field w)) rest

/-- The decoder, total on any words. The checks run in the order of R76: the operation code (R77), the reserved
field (R78), then the arrival of the immediate words (R81). -/
def decode : List Word → Decoded
  | [] => .noWord
  | w :: rest =>
    match Opcode.ofByte (opField w) with
    | none => .rejected .undefinedOpcode w
    | some op =>
      if reservedNonzero op w then .rejected .reservedFieldNonzero w
      else takeOperands op w rest

/-! ## The encoder -/

/-- The byte operand of a command; 0 where `IMM8` must be 0 (R71). -/
def Instr.imm8 : Instr → Byte
  | .new => 0#8
  | .newp _ => 0#8
  | .newps _ _ => 0#8
  | .upd b => b
  | .fin => 0#8
  | .rst => 0#8
  | .tabrd i => i

/-- The immediate words of a command, in order (R70, R74). -/
def Instr.immediates : Instr → List Word
  | .new => []
  | .newp p => [p]
  | .newps p s => [p, s]
  | .upd _ => []
  | .fin => []
  | .rst => []
  | .tabrd _ => []

/-- The command word: `oooooooo 00000000 00000000 bbbbbbbb` (R71). -/
def commandWord (i : Instr) : Word := i.opcode.code ++ 0#16 ++ i.imm8

/-- The words of a command: the command word, then the immediate words (R70). -/
def encode (i : Instr) : List Word := commandWord i :: i.immediates

/-- The words of a sequence of commands, in stream order. -/
def encodeAll (is : List Instr) : List Word := is.flatMap encode

/-! ## Words numbered as the opcode table numbers them -/

/-- Bits 31:0, 63:32 and 95:64 of `w` as three words, after every bit from `nbits` up is cleared: the words of the
longest command, the first word first (R70). -/
def tableWords (nbits w : Nat) : List Word :=
  (List.range Config.longestCommand).map fun k => BitVec.ofNat 32 ((w % 2 ^ nbits) >>> (32 * k))

/-- The command the decoder reads from an opcode-table word; `none` where it rejects the word. -/
def decodeTableWord (nbits w : Nat) : Option Instr :=
  match decode (tableWords nbits w) with
  | .command i _ => some i
  | .noWord => none
  | .rejected _ _ => none
  | .incomplete => none

end Sys2Proof
end

