-- ==== Sys2Proof/Machine/State.lean ====
section
/-! DEFINITION. The state of the block (10_state.md R20 to R37), the reasons a step stops, and the state after
hardware reset (70_reset_and_hazards.md R230). -/

namespace Sys2Proof.Machine

/-- `MODE`, the control state (R28). -/
inductive Mode where
  | unconfigured
  | ready
  | faulted
  deriving DecidableEq, Repr

/-- The three fault causes (60_exceptions.md R201). They are the block's own faults: taking one is a next state,
with `MODE = FAULTED`, and no stop of the model. -/
inductive Cause where
  | undefinedOpcode
  | reservedFieldNonzero
  | notConfigured
  deriving DecidableEq, Repr

/-- The elements that are "unwritten" after hardware reset (R37, R230). Which of them are so in a state says
`State.written` (Machine/Flags.lean). -/
inductive Element where
  | poly
  | seed
  | table
  | state
  | errWord
  | errCp
  deriving DecidableEq, Repr

/-- Why the block has no step. The block's own faults are not here: they are next states (`Cause`). -/
inductive Fault where
  /-- Raised by `step` when no command word is waiting: "no step -- idle: waiting for a command word" (R76, R213).
  A run that stops here has completed (R238). Safe: the spec gives no step. -/
  | noStepIdle
  /-- Raised by `step` and by every meaning in `MODE = FAULTED`: "no command is accepted" and the block "has no
  step" (R204). Safe: the spec gives no step. -/
  | noStepFaulted
  /-- Raised by `step` when the immediate words of a NEWP or NEWPS have not all arrived: the block waits (R81).
  Safe: the spec gives no step. -/
  | noStepWaiting
  deriving DecidableEq, Repr

/-- What the model refuses. -/
inductive Refusal where
  /-- An arm of `exec` that has no meaning yet; no arm of this model uses it. Safe: the model stops. -/
  | notModelled (mnemonic : String)
  /-- Raised by `step` in a state whose CAUSE is one of the reserved codes 4 to 15, which are "never produced. A
  model that meets one must `refuse`" (93_implementation_defined.md I13). Safe: the model stops. -/
  | reservedCause (code : BitVec 4)
  deriving DecidableEq, Repr

/-- The state: the seven elements of the block (R20), the spec's three pieces of bookkeeping `cp`, `OUT` and
`ERR_CP` (R20), the mark whether POLY, SEED, TABLE and STATE have been written since hardware reset (R28, R37), and
the host's command stream `S` (R76). -/
structure State where
  /-- `POLY`, the polynomial in reflected form (R23). -/
  poly : Word
  /-- `SEED` (R24). -/
  seed : Word
  /-- `TABLE[0..255]` (R25); all its entries are written at once. -/
  table : Vector Word Config.tableSize
  /-- `STATE`, the running hash register (R27). -/
  state : Word
  /-- A construction has been executed since hardware reset, and so has written POLY, SEED, TABLE and STATE (R28). It
  is the spec's own difference between these elements "unwritten" and written (R37), kept for all four at once, since
  every construction writes all four (R101 to R103). No command reads it (assumption log 10). -/
  constructed : Bool
  /-- `MODE` (R28). -/
  mode : Mode
  /-- `CAUSE`, 4 bits (R30). -/
  cause : BitVec 4
  /-- `ERR_WORD`, the command word that faulted (R31). -/
  errWord : Word
  /-- `ERR_CP`, the `cp` of that word (R31). -/
  errCp : Nat
  /-- `cp`, the index of the next command word in the stream; unbounded (R22). -/
  cp : Nat
  /-- `OUT`, every byte put on the response port since hardware reset, oldest first (R29). -/
  out : List Byte
  /-- `S`, the words the host has sent on the command port in this run (R76, R238). -/
  stream : List Word
  deriving DecidableEq, Repr

/-- The state after hardware reset (R37, R230), before the host has sent a word. POLY, SEED, TABLE, STATE, ERR_WORD and
ERR_CP are unwritten (`State.written`); what their storage holds meanwhile the spec does not say, and it is 0 here.
DESIGN CHOICE, unsafe (assumption log 1): no command and no port shows it. -/
def State.reset : State where
  poly := 0#32
  seed := 0#32
  table := Vector.replicate Config.tableSize 0#32
  state := 0#32
  constructed := false
  mode := .unconfigured
  cause := 0#4
  errWord := 0#32
  errCp := 0
  cp := 0
  out := []
  stream := []

end Sys2Proof.Machine
end

