-- ==== Sys2Proof/Machine/Flags.lean ====
section
/-! DEFINITION. The cause codes (60_exceptions.md R201), the two read-only ports STATUS and ERR_WORD (10_state.md R32,
R33), and which elements are unwritten (R37). The block has no other flag: "no command sets a condition code as a side effect" (R32). -/

namespace Sys2Proof.Machine

/-- The code of each cause (R201); 0 stands for no fault. -/
def Cause.code : Cause → BitVec 4
  | .undefinedOpcode => 1#4
  | .reservedFieldNonzero => 2#4
  | .notConfigured => 3#4

/-- The reserved cause codes, 4 to 15 (R201, I13). -/
def causeReserved (c : BitVec 4) : Bool := decide (Config.firstReservedCause ≤ c.toNat)

/-- `STATUS.CFG`: 1 iff `MODE = READY` (R32). -/
def statusCfg (s : State) : Bool := s.mode == .ready

/-- `STATUS.FAULT`: 1 iff `MODE = FAULTED` (R32). -/
def statusFault (s : State) : Bool := s.mode == .faulted

/-- `STATUS`, the view of MODE and CAUSE on the status port: bits 31:8 reserved, 7:4 CAUSE, 3:2 reserved, 1 FAULT,
0 CFG; the reserved bits are hardwired 0 (R32). -/
def statusPort (s : State) : Word :=
  0#24 ++ s.cause ++ 0#2 ++ BitVec.ofBool (statusFault s) ++ BitVec.ofBool (statusCfg s)

/-- The ERR_WORD port: ERR_WORD while `MODE = FAULTED`, 0 otherwise (R33). -/
def errWordPort (s : State) : Word :=
  match s.mode with
  | .faulted => s.errWord
  | .unconfigured => 0#32
  | .ready => 0#32

/-! ## The unwritten elements (R28, R31, R35, R37) -/

/-- POLY, SEED, TABLE and STATE are written: never in UNCONFIGURED, always in READY (R28), and in FAULTED where a
construction came before the fault, which leaves them as they were (R202). -/
def State.engineWritten (s : State) : Bool :=
  match s.mode with
  | .unconfigured => false
  | .ready => true
  | .faulted => s.constructed

/-- ERR_WORD and ERR_CP are written: a fault writes them and only hardware reset leaves FAULTED, so exactly in FAULTED
(R28, R31). -/
def State.faultRecorded (s : State) : Bool := s.mode == .faulted

/-- An element is written. Where it is not, the spec calls it unwritten (R37). The mode alone decides it in the two modes
in which commands are accepted, so the check of the mode that every command makes (R36) is the check that it reads no
unwritten element (R35). -/
def State.written (s : State) : Element → Bool
  | .poly => s.engineWritten
  | .seed => s.engineWritten
  | .table => s.engineWritten
  | .state => s.engineWritten
  | .errWord => s.faultRecorded
  | .errCp => s.faultRecorded

end Sys2Proof.Machine
end

