-- ==== Sys2Proof/Machine/Operands.lean ====
section
/-! DEFINITION. The operand forms and the operators of the pseudocode (00_scope.md R8, 30_encoding.md R72, R73). -/

namespace Sys2Proof.Machine

/-- `zext_32(b)`: a byte widened with zeros (R8). -/
def zext32 (b : Byte) : Word := b.setWidth 32

/-- `not(a)`, one's complement: `a xor 0xFFFFFFFF` (R8). -/
def onesComplement (a : Word) : Word := a ^^^ 0xFFFFFFFF#32

/-- `BE4(v)`: the bytes 31:24, 23:16, 15:8 and 7:0 of `v`, in this order (R8, R52). -/
def be4 (v : Word) : List Byte :=
  [v.extractLsb' 24 8, v.extractLsb' 16 8, v.extractLsb' 8 8, v.extractLsb' 0 8]

/-- The table index of UPD as the update formula writes it, a 32-bit value: `zext_32(b) xor (STATE & 0xFF)`
(R8, R120). -/
def updIndexWord (b : Byte) (v : Word) : Word := zext32 b ^^^ (v &&& 0x000000FF#32)

/-- The same index as an address of the table index space, 8 bits wide (R50). R8 gives the reason why nothing is
lost: "The result always lies in 0..255". -/
def updIndex (b : Byte) (v : Word) : Byte := (updIndexWord b v).setWidth 8

/-- The operand of TABRD, "used unchanged" (R72). -/
def tabrdIndex (i : Byte) : Byte := i

end Sys2Proof.Machine
end

