-- ==== Sys2Proof/Machine/Ops.lean ====
section
/-! DEFINITION. The named operations the meanings are written over: reading the table, the table generator, the
response port, acceptance of a command, taking a fault, and the host's side of the command stream. -/

namespace Sys2Proof.Machine

/-! ## Reading the table -/

/-- `TABLE[i]`: the entry at an index of the table index space (R50). Every index is valid. -/
def tableEntry (t : Vector Word Config.tableSize) (i : Byte) : Word := t[i.toNat]'i.isLt

/-! ## The table generator (40_construction.md R100) -/

/-- One step of the generator: shift right, and XOR the polynomial in where bit 0 was 1 (R100). -/
def genStep (p k : Word) : Word := if k.getLsbD 0 then (k >>> 1) ^^^ p else k >>> 1

/-- `n` steps of the generator. -/
def genSteps (p : Word) : Nat → Word → Word
  | 0, k => k
  | n + 1, k => genSteps p n (genStep p k)

/-- `GenTable(p)[i]`: eight steps from `zext_32(i)` (R100). -/
def genEntry (p : Word) (i : Byte) : Word := genSteps p Config.tableIterations (zext32 i)

/-- `GenTable(p)` (R100). -/
def genTable (p : Word) : Vector Word Config.tableSize := Vector.ofFn fun i => genEntry p (BitVec.ofFin i)

/-! ## Writing the state -/

/-- `cp <- cp + n`: an accepted command advances `cp` by its length (R22, R75). -/
def State.advance (n : Nat) (s : State) : State := { s with cp := s.cp + n }

/-- `Emit(bytes)`: append the bytes, in order, to OUT (R9, R29). -/
def State.emit (bytes : List Byte) (s : State) : State := { s with out := s.out ++ bytes }

/-- `STATE <- v` (R27). -/
def State.setState (v : Word) (s : State) : State := { s with state := v }

/-- The writes of a construction with polynomial `p` and seed `sd`: POLY, SEED, TABLE, STATE and MODE
(R101 to R103). -/
def State.construct (p sd : Word) (s : State) : State :=
  { s with
    poly := p
    seed := sd
    table := genTable p
    state := sd
    constructed := true
    mode := .ready }

/-! ## Taking a fault (60_exceptions.md R202) -/

/-- `raise <Cause>(w)`: the fault state with its cause code, the faulting command word and its `cp`; the command
word is consumed; nothing else changes (R202). There is no vector, no handler and no return (R202, R205): only
hardware reset leaves the fault state (`hardwareReset` in Machine/Ports.lean). -/
def State.raise (c : Cause) (w : Word) (s : State) : State :=
  { s with
    mode := .faulted
    cause := c.code
    errWord := w
    errCp := s.cp
    cp := s.cp + 1 }

/-- The cause of a word that the decoder rejects (R77, R78). -/
def rejectionCause : Rejection → Cause
  | .undefinedOpcode => .undefinedOpcode
  | .reservedFieldNonzero => .reservedFieldNonzero

/-! ## Acceptance of a command (R75, R203, R204) -/

/-- A construction command is accepted in UNCONFIGURED and in READY; in FAULTED no command is accepted and the
block has no step (R75, R204). -/
def whenAccepting (s : State) (k : Host.Outcome State Fault Refusal) : Host.Outcome State Fault Refusal :=
  match s.mode with
  | .faulted => .fault .noStepFaulted
  | .unconfigured => k
  | .ready => k

/-- UPD, FIN, RST and TABRD are accepted in READY only; in UNCONFIGURED the command word `w` raises
NOT_CONFIGURED (R75, R201), and in FAULTED the block has no step (R204). This is how a read of an unwritten element
faults (R35): each of the four commands reads one of POLY, SEED, TABLE and STATE (R36), which are unwritten in
UNCONFIGURED and written in READY (R28). -/
def whenReady (w : Word) (s : State) (k : Host.Outcome State Fault Refusal) : Host.Outcome State Fault Refusal :=
  match s.mode with
  | .faulted => .fault .noStepFaulted
  | .unconfigured => .next (s.raise .notConfigured w)
  | .ready => k

/-- The three construction commands: the writes of `State.construct`, and `cp` past the command's words. -/
def constructCommand (op : Opcode) (p sd : Word) (s : State) : Host.Outcome State Fault Refusal :=
  whenAccepting s (.next ((s.construct p sd).advance op.length))

/-! ## The command stream -/

/-- The words on the command port that the block has not consumed: `S[cp]`, `S[cp+1]`, … (R76). -/
def State.pending (s : State) : List Word := s.stream.drop s.cp

/-- The stream with the words `ws` at `S[cp]`, `S[cp+1]`, …, in place of what stood there. Positions below `cp`
that the stream lacks (in states that no run reaches) are filled with zero words, which `cp` has passed. -/
def State.placeWords (ws : List Word) (s : State) : State :=
  { s with
    stream := (s.stream ++ List.replicate (s.cp - s.stream.length) 0#32).take s.cp ++ ws ++
      s.stream.drop (s.cp + ws.length) }

end Sys2Proof.Machine
end

