-- ==== Sys2Proof/Machine/Construction.lean ====
section
/-! DEFINITION. The construction commands NEW, NEWP and NEWPS (40_construction.md). -/

namespace Sys2Proof.Machine

/-- NEW: both defaults (R101). -/
def execNew (s : State) : Host.Outcome State Fault Refusal :=
  constructCommand .new Config.polyDefault Config.seedDefault s

/-- NEWP: the given polynomial, honoured as it stands (R102, R107), and the default seed. -/
def execNewp (p : Word) (s : State) : Host.Outcome State Fault Refusal :=
  constructCommand .newp p Config.seedDefault s

/-- NEWPS: the given polynomial and seed (R103). -/
def execNewps (p sd : Word) (s : State) : Host.Outcome State Fault Refusal :=
  constructCommand .newps p sd s

end Sys2Proof.Machine
end

