-- ==== Sys2Proof/Machine/Update.lean ====
section
/-! DEFINITION. The byte-serial update UPD (41_update.md). -/

namespace Sys2Proof.Machine

/-- The source's update formula, `(state >> 8) xor table[b xor (state & 0xFF)]` (R120). -/
def updateByte (t : Vector Word Config.tableSize) (v : Word) (b : Byte) : Word :=
  (v >>> 8) ^^^ tableEntry t (updIndex b v)

/-- `Upd*`, the effect of a byte sequence on the running state (R121). -/
def updStar (t : Vector Word Config.tableSize) : Word → List Byte → Word
  | v, [] => v
  | v, b :: bs => updStar t (updateByte t v b) bs

/-- UPD (R120). Both reads of STATE see its value before the command. -/
def execUpd (b : Byte) (s : State) : Host.Outcome State Fault Refusal :=
  whenReady (commandWord (.upd b)) s <|
    .next ((s.setState (updateByte s.table s.state b)).advance Opcode.upd.length)

end Sys2Proof.Machine
end

