-- ==== Sys2Proof/Machine/Finalize.lean ====
section
/-! DEFINITION. FIN, RST and the digest function (42_finalize_reset.md). -/

namespace Sys2Proof.Machine

/-- FIN: emit `BE4(not(STATE))`; STATE is not written and SEED is not read (R140). -/
def execFin (s : State) : Host.Outcome State Fault Refusal :=
  whenReady (commandWord .fin) s <|
    .next ((s.emit (be4 (onesComplement s.state))).advance Opcode.fin.length)

/-- RST: `STATE <- SEED` (R141). -/
def execRst (s : State) : Host.Outcome State Fault Refusal :=
  whenReady (commandWord .rst) s <|
    .next ((s.setState s.seed).advance Opcode.rst.length)

/-- `CRC(p, s, m) = not(Upd*(s, m))` with `TABLE = GenTable(p)` (R144). -/
def crc (p sd : Word) (m : List Byte) : Word := onesComplement (updStar (genTable p) sd m)

end Sys2Proof.Machine
end

