-- ==== Sys2Proof/Machine/TableRead.lean ====
section
/-! DEFINITION. The table readout TABRD (43_table_read.md). -/

namespace Sys2Proof.Machine

/-- TABRD: emit `BE4(TABLE[i])` (R160). -/
def execTabrd (i : Byte) (s : State) : Host.Outcome State Fault Refusal :=
  whenReady (commandWord (.tabrd i)) s <|
    .next ((s.emit (be4 (tableEntry s.table (tabrdIndex i)))).advance Opcode.tabrd.length)

end Sys2Proof.Machine
end

