-- ==== Sys2Proof/Machine/Dispatch.lean ====
section
/-! DEFINITION. `Execute`: the meaning of each command, one arm each (30_encoding.md R75, R76). -/

namespace Sys2Proof.Machine

def exec (i : Instr) (s : State) : Host.Outcome State Fault Refusal :=
  match i with
  | .new => Sys2Proof.Machine.execNew s
  | .newp p => Sys2Proof.Machine.execNewp p s
  | .newps p sd => Sys2Proof.Machine.execNewps p sd s
  | .upd b => Sys2Proof.Machine.execUpd b s
  | .fin => Sys2Proof.Machine.execFin s
  | .rst => Sys2Proof.Machine.execRst s
  | .tabrd k => Sys2Proof.Machine.execTabrd k s

end Sys2Proof.Machine
end

