-- ==== Sys2Proof/Machine/Step.lean ====
section
/-! DEFINITION. One step of the block (30_encoding.md R76). -/

namespace Sys2Proof.Machine

/-- `Step()` of R76. A reserved cause code is refused (I13). In FAULTED there is no step (R204). Otherwise the
waiting words are decoded: a rejected word raises its fault, an incomplete command waits, and a whole command is
executed. NOT_CONFIGURED, the third check of R76, stands in the meanings of the four commands it concerns; it
still comes before the arrival of immediate words, since none of the four has any. -/
def step (s : State) : Host.Outcome State Fault Refusal :=
  if causeReserved s.cause then .refused (.reservedCause s.cause)
  else
    match s.mode with
    | .faulted => .fault .noStepFaulted
    | .unconfigured | .ready =>
      match decode s.pending with
      | .noWord => .fault .noStepIdle
      | .rejected why w => .next (s.raise (rejectionCause why) w)
      | .incomplete => .fault .noStepWaiting
      | .command i _ => exec i s

/-- The state with an opcode-table word as the next words of the command stream. It stands for the host's sending
these words (R236); nothing but the stream changes (assumption log 2). -/
def State.withFetchWord (s : State) (nbits w : Nat) : State := s.placeWords (tableWords nbits w)

end Sys2Proof.Machine
end

