-- ==== Sys2Proof/WellFormed.lean ====
section
/-! DEFINITION. Which assembler lines are well formed (30_encoding.md R82). A command (`Instr`) carries no check of
its own: its operands have exactly the widths of R71 to R73 and every value of them is legal there ("Every value
is legal"), so every term of `Instr` is a well-formed command. -/

namespace Sys2Proof

/-- A `u8` operand of the assembler: "a `u8` above 255" is refused (R82). -/
def fitsByte (n : Nat) : Bool := decide (n ≤ 255)

/-- A `u32` operand of the assembler: "a `u32` above `0xFFFFFFFF`" is refused (R82). -/
def fitsWord (n : Nat) : Bool := decide (n ≤ 0xFFFFFFFF)

/-- "An assembler refuses an operand out of range" (R82): every operand of the line is in its range. -/
def AsmLine.wellFormed : AsmLine → Bool
  | .new => true
  | .newp p => fitsWord p
  | .newps p s => fitsWord p && fitsWord s
  | .upd b => fitsByte b
  | .fin => true
  | .rst => true
  | .tabrd i => fitsByte i
  | .word w => fitsWord w
  | .upds bs => bs.all fitsByte
  | .hash bs => bs.all fitsByte

end Sys2Proof
end

