-- ==== Sys2Proof/Machine/Assembler.lean ====
section
/-! DEFINITION. The assembler of the command set (30_encoding.md R82 to R84): the pseudo-instructions, the words of a
line, and the reading of a line's text, one command a line. It stands outside the block: the block sees only the words. -/

namespace Sys2Proof.Machine

/-! ## Pseudo-instructions -/

/-- `upds`: one UPD per byte, in order (R83). -/
def expandUpds (bytes : List Byte) : List Instr := bytes.map .upd

/-- `hash`: RST, the UPDs of the bytes, FIN (R84). -/
def expandHash (bytes : List Byte) : List Instr := .rst :: (expandUpds bytes ++ [.fin])

/-! ## The words of a line -/

/-- A byte operand. -/
def asmByte (n : Nat) : Byte := BitVec.ofNat 8 n

/-- A word operand. -/
def asmWord (n : Nat) : Word := BitVec.ofNat 32 n

/-- The words a line stands for (R82 to R84), for a line whose operands are in range. -/
def lineWords : AsmLine → List Word
  | .new => encode .new
  | .newp p => encode (.newp (asmWord p))
  | .newps p s => encode (.newps (asmWord p) (asmWord s))
  | .upd b => encode (.upd (asmByte b))
  | .fin => encode .fin
  | .rst => encode .rst
  | .tabrd i => encode (.tabrd (asmByte i))
  | .word w => [asmWord w]
  | .upds bs => encodeAll (expandUpds (bs.map asmByte))
  | .hash bs => encodeAll (expandHash (bs.map asmByte))

/-- The assembler's answer for a line: its words, or `none` where an operand is out of range (R82). -/
def assembleLine (l : AsmLine) : Option (List Word) := if l.wellFormed then some (lineWords l) else none

/-! ## The text of a line (R82; spacing is the model's convention, assumption log 4) -/

/-- Spaces between the parts of a line. -/
def isBlank (c : Char) : Bool := c == ' ' || c == '\t'

/-- The rest of the line after spaces. -/
def skipBlanks (cs : List Char) : List Char := cs.dropWhile isBlank

/-- A character's ASCII code; `none` outside ASCII (R82). -/
def asciiCode (c : Char) : Option Nat := if c.toNat < 128 then some c.toNat else none

/-- A decimal digit. -/
def decDigit (c : Char) : Option Nat :=
  if '0'.toNat ≤ c.toNat ∧ c.toNat ≤ '9'.toNat then some (c.toNat - '0'.toNat) else none

/-- A hexadecimal digit; letter case has no meaning (00_scope.md R7). -/
def hexDigit (c : Char) : Option Nat :=
  match decDigit c with
  | some d => some d
  | none =>
    if 'a'.toNat ≤ c.toNat ∧ c.toNat ≤ 'f'.toNat then some (c.toNat - 'a'.toNat + 10)
    else if 'A'.toNat ≤ c.toNat ∧ c.toNat ≤ 'F'.toNat then some (c.toNat - 'A'.toNat + 10)
    else none

/-- The digits at the head of the text, and the rest. -/
def takeDigits (hex : Bool) : List Char → List Nat × List Char
  | [] => ([], [])
  | c :: cs =>
    match if hex then hexDigit c else decDigit c with
    | some d => (d :: (takeDigits hex cs).1, (takeDigits hex cs).2)
    | none => ([], c :: cs)

/-- The number that digits write in a base, the most significant first. -/
def digitsValue (base : Nat) (ds : List Nat) : Nat := ds.foldl (fun n d => n * base + d) 0

/-- A number of at least one digit in the given base; leading zeros change nothing (assumption log 13). -/
def readDigits (hex : Bool) (cs : List Char) : Option (Nat × List Char) :=
  match takeDigits hex cs with
  | ([], _) => none
  | (d :: ds, rest) => some (digitsValue (if hex then 16 else 10) (d :: ds), rest)

/-- "Numbers are decimal, or hexadecimal with a `0x` prefix" (R82). DESIGN CHOICE (assumption log 13): the prefix is in
lower case, and `0X` is refused; the spec does not say whether the letter case that "has no meaning" in a literal
(00_scope.md R7) is that of the prefix too. -/
def readNumber (cs : List Char) : Option (Nat × List Char) :=
  match cs with
  | '0' :: 'x' :: rest => readDigits true rest
  | _ => readDigits false cs

/-- "A byte operand may also be a character literal" (R82). -/
def readByte (cs : List Char) : Option (Nat × List Char) :=
  match cs with
  | '\'' :: c :: '\'' :: rest =>
    match asciiCode c with
    | some n => some (n, rest)
    | none => none
  | _ => readNumber cs

/-- An operand list separated by commas that ends the line; `fuel` bounds the number of operands. -/
def readList (item : List Char → Option (Nat × List Char)) : Nat → List Char → Option (List Nat)
  | 0, _ => none
  | fuel + 1, cs =>
    match item (skipBlanks cs) with
    | none => none
    | some (n, rest) =>
      match skipBlanks rest with
      | [] => some [n]
      | c :: rest' =>
        if c = ',' then
          match readList item fuel rest' with
          | some ns => some (n :: ns)
          | none => none
        else none

/-- The text quote, `0x22`. -/
def quoteChar : Char := Char.ofNat 0x22

/-- The ASCII codes up to the closing quote, and the rest of the line. -/
def takeQuoted : List Char → Option (List Nat × List Char)
  | [] => none
  | c :: cs =>
    if c = quoteChar then some ([], cs)
    else
      match asciiCode c, takeQuoted cs with
      | some n, some (ns, rest) => some (n :: ns, rest)
      | some _, none => none
      | none, _ => none

/-- The operand of `upds` and `hash`: a list of bytes or a quoted text (R83, R84). -/
def readBytes (cs : List Char) : Option (List Nat) :=
  match skipBlanks cs with
  | [] => none
  | c :: rest =>
    if c = quoteChar then
      match takeQuoted rest with
      | some (ns, rest') => if (skipBlanks rest').isEmpty then some ns else none
      | none => none
    else readList readByte (c :: rest).length (c :: rest)

/-- A letter of a mnemonic: "Mnemonics are in lower case" (R82); the directive begins with a point. -/
def isMnemonicChar (c : Char) : Bool := c == '.' || (decide ('a'.toNat ≤ c.toNat) && decide (c.toNat ≤ 'z'.toNat))

/-- A line with no operand. -/
def noOperand (l : AsmLine) (rest : List Char) : Option AsmLine := if (skipBlanks rest).isEmpty then some l else none

/-- A line with one operand. -/
def oneOperand (item : List Char → Option (Nat × List Char)) (mk : Nat → AsmLine) (rest : List Char) :
    Option AsmLine :=
  match readList item rest.length rest with
  | some [n] => some (mk n)
  | _ => none

/-- A line with two operands. -/
def twoOperands (item : List Char → Option (Nat × List Char)) (mk : Nat → Nat → AsmLine) (rest : List Char) :
    Option AsmLine :=
  match readList item rest.length rest with
  | some [m, n] => some (mk m n)
  | _ => none

/-- A line with a byte-sequence operand. -/
def bytesOperand (mk : List Nat → AsmLine) (rest : List Char) : Option AsmLine :=
  match readBytes rest with
  | some ns => some (mk ns)
  | none => none

/-- The line that a text writes (the table of R82, R83, R84). A blank stands between a mnemonic and its operands. -/
def parseLine (text : List Char) : Option AsmLine :=
  let line := skipBlanks text
  let name := line.takeWhile isMnemonicChar
  let rest := line.dropWhile isMnemonicChar
  if !(rest.isEmpty || isBlank (rest.headD ' ')) then none
  else if name = ['n', 'e', 'w'] then noOperand .new rest
  else if name = ['n', 'e', 'w', 'p'] then oneOperand readNumber .newp rest
  else if name = ['n', 'e', 'w', 'p', 's'] then twoOperands readNumber .newps rest
  else if name = ['u', 'p', 'd'] then oneOperand readByte .upd rest
  else if name = ['f', 'i', 'n'] then noOperand .fin rest
  else if name = ['r', 's', 't'] then noOperand .rst rest
  else if name = ['t', 'a', 'b', 'r', 'd'] then oneOperand readByte .tabrd rest
  else if name = ['.', 'w', 'o', 'r', 'd'] then oneOperand readNumber .word rest
  else if name = ['u', 'p', 'd', 's'] then bytesOperand .upds rest
  else if name = ['h', 'a', 's', 'h'] then bytesOperand .hash rest
  else none

/-- The words of one line of text; `none` where the assembler refuses it. -/
def assembleText (text : List Char) : Option (List Word) :=
  match parseLine text with
  | some l => assembleLine l
  | none => none

/-- The words of a program, "One command per line" (R82); `none` where one of its lines is refused. -/
def assembleProgram : List (List Char) → Option (List Word)
  | [] => some []
  | t :: ts =>
    match assembleText t, assembleProgram ts with
    | some ws, some rest => some (ws ++ rest)
    | some _, none => none
    | none, _ => none

end Sys2Proof.Machine
end

