-- ==== Sys2Proof/Machine/Ports.lean ====
section
/-! DEFINITION. The host's side of the ports (70_reset_and_hazards.md R230, R236). STATUS and ERR_WORD are in
Machine/Flags.lean. These are what the host does between two steps of the block; none of them is a step. -/

namespace Sys2Proof.Machine

/-- The host sends words on the command port: they join the end of the stream, legal or not (R236). -/
def hostSend (ws : List Word) (s : State) : State := { s with stream := s.stream ++ ws }

/-- Hardware reset, in every mode and at any time: the state of R37, whatever came before. It ends the run; the
words already sent are discarded and the next run starts with a new command stream `S` (R230). -/
def hardwareReset (S : List Word) (_s : State) : State := { State.reset with stream := S }

/-- Byte number `k` of the response stream, as the host reads it in order; the read changes no state (R29, R236). -/
def hostReadResponse (k : Nat) (s : State) : Option Byte := s.out[k]?

/-- The completed run's observation: OUT and STATUS (R238; the internal state is the state itself). -/
def observation (s : State) : List Byte × Word := (s.out, statusPort s)

end Sys2Proof.Machine
end

