-- ==== Sys2Proof/Safety.lean ====
section
/-! DEFINITION. The terms claims use: the invariant of the state, the ends of a run, and the execution of a sequence
of commands. -/

namespace Sys2Proof.Machine

/-! ## Vocabulary -/

/-- A step may take the next word: `MODE` is not FAULTED (R204) and CAUSE is no reserved code (I13). -/
def Accepting (s : State) : Prop := s.mode ≠ .faulted ∧ s.cause.toNat < Config.firstReservedCause

/-- The state after `raise` with a cause code and a word, field by field as R202 writes it. -/
def faultState (code : BitVec 4) (w : Word) (s : State) : State :=
  { s with mode := .faulted, cause := code, errWord := w, errCp := s.cp, cp := s.cp + 1 }

/-! ## The invariant -/

/-- The engine holds polynomial `p`, seed `sd` and running state `v`, and `TABLE = GenTable(POLY)` (R26). -/
def Built (p sd v : Word) (s : State) : Prop :=
  s.poly = p ∧ s.seed = sd ∧ s.table = genTable p ∧ s.state = v

/-- READY with an engine built from `p` and `sd`, whose running state is `v`. -/
def ReadyWith (p sd v : Word) (s : State) : Prop := s.mode = .ready ∧ Built p sd v s

/-- What holds of every state that a run reaches; a field cites the rule it follows from. -/
structure Inv (s : State) : Prop where
  /-- CAUSE is no reserved code: 4 to 15 are "never raised" (R201). -/
  cause_legal : s.cause.toNat < Config.firstReservedCause
  /-- CAUSE "is 0 while `MODE` is not `FAULTED`" (R30) and names a fault in FAULTED (R202). -/
  cause_zero_iff : s.cause = 0#4 ↔ s.mode ≠ .faulted
  /-- UNCONFIGURED means "no construction since hardware reset" (R28). -/
  unconfigured_unbuilt : s.mode = .unconfigured → s.constructed = false
  /-- READY is entered by a construction alone (R28). -/
  ready_constructed : s.mode = .ready → s.constructed = true
  /-- The table invariant R26; a fault keeps the engine as it was (R202). -/
  table_generated : s.constructed = true → s.table = genTable s.poly
  /-- In FAULTED, ERR_CP is the position before `cp`, and ERR_WORD is the word there (R202). -/
  fault_record : s.mode = .faulted → s.cp = s.errCp + 1 ∧ s.stream[s.errCp]? = some s.errWord
  /-- `cp` never passes the end of the stream (R76). -/
  cp_le : s.cp ≤ s.stream.length
  /-- OUT grows by 4 bytes per command (R29). -/
  out_len : s.out.length % 4 = 0

/-! ## The unwritten elements (R35) -/

/-- The read columns of the access matrix R36, for the elements that can be unwritten: POLY, ERR_WORD and ERR_CP are read
by no command (R23, R31). -/
def readsElement : Instr → Element → Bool
  | .new, _ => false
  | .newp _, _ => false
  | .newps _ _, _ => false
  | .upd _, e => e == .table || e == .state
  | .fin, e => e == .state
  | .rst, e => e == .seed
  | .tabrd _, e => e == .table

/-- The two states are the same but for the values that the storage of unwritten elements holds. -/
structure AgreeOnWritten (a b : State) : Prop where
  mode : a.mode = b.mode
  constructed : a.constructed = b.constructed
  cause : a.cause = b.cause
  cp : a.cp = b.cp
  out : a.out = b.out
  stream : a.stream = b.stream
  poly : a.written .poly = true → a.poly = b.poly
  seed : a.written .seed = true → a.seed = b.seed
  table : a.written .table = true → a.table = b.table
  state : a.written .state = true → a.state = b.state
  errWord : a.written .errWord = true → a.errWord = b.errWord
  errCp : a.written .errCp = true → a.errCp = b.errCp

/-! ## The end of a run (70_reset_and_hazards.md R238) -/

/-- The three kinds of end (R238). -/
inductive RunEnd where
  | completed
  | faulted
  | waiting
  deriving DecidableEq, Repr

/-- The condition of each end, as the table of R238 writes it. -/
def RunEnd.condition : RunEnd → State → Prop
  | .completed, s => s.mode ≠ .faulted ∧ s.cp = s.stream.length
  | .faulted, s => s.mode = .faulted
  | .waiting, s =>
    s.mode ≠ .faulted ∧ s.cp < s.stream.length ∧
      ((s.stream[s.cp]? = some 0x02000000#32 ∧ s.stream.length < s.cp + 2) ∨
       (s.stream[s.cp]? = some 0x03000000#32 ∧ s.stream.length < s.cp + 3))

/-- The stop that ends a run of each kind. -/
def RunEnd.stop : RunEnd → Fault
  | .completed => .noStepIdle
  | .faulted => .noStepFaulted
  | .waiting => .noStepWaiting

/-- Only a completed run is final (R238). -/
def RunEnd.final : RunEnd → Bool
  | .completed => true
  | .faulted => false
  | .waiting => false

/-! ## A sequence of commands -/

/-- The commands executed one after another (R58); the sequence stops where a command does not answer a next
state. -/
def runInstrs : List Instr → State → Host.Outcome State Fault Refusal
  | [], s => .next s
  | i :: is, s =>
    match exec i s with
    | .next s' => runInstrs is s'
    | .fault r => .fault r
    | .refused r => .refused r

/-- The data bytes that a sequence of commands feeds, in order. -/
def fedBytes : List Instr → List Byte
  | [] => []
  | .upd b :: is => b :: fedBytes is
  | .new :: is => fedBytes is
  | .newp _ :: is => fedBytes is
  | .newps _ _ :: is => fedBytes is
  | .fin :: is => fedBytes is
  | .rst :: is => fedBytes is
  | .tabrd _ :: is => fedBytes is

/-- The table indices that a sequence of commands reads out, in order. -/
def readIndices : List Instr → List Byte
  | [] => []
  | .tabrd k :: is => k :: readIndices is
  | .new :: is => readIndices is
  | .newp _ :: is => readIndices is
  | .newps _ _ :: is => readIndices is
  | .upd _ :: is => readIndices is
  | .fin :: is => readIndices is
  | .rst :: is => readIndices is

/-- A construction command: NEW, NEWP or NEWPS. -/
def isConstruction : Instr → Bool
  | .new => true
  | .newp _ => true
  | .newps _ _ => true
  | .upd _ => false
  | .fin => false
  | .rst => false
  | .tabrd _ => false

/-- The polynomial and the seed that a construction command writes (R101 to R103, with the defaults of R74); `none` for
the other commands. -/
def constructionOperands : Instr → Option (Word × Word)
  | .new => some (Config.polyDefault, Config.seedDefault)
  | .newp p => some (p, Config.seedDefault)
  | .newps p sd => some (p, sd)
  | .upd _ => none
  | .fin => none
  | .rst => none
  | .tabrd _ => none

/-- A command that emits on the response port: FIN or TABRD (R29). -/
def emitsResponse : Instr → Bool
  | .fin => true
  | .tabrd _ => true
  | .new => false
  | .newp _ => false
  | .newps _ _ => false
  | .upd _ => false
  | .rst => false

/-- UPD, FIN or TABRD: the commands that may stand between the chunks of a message (R122). -/
def feedsOrReads : Instr → Bool
  | .upd _ => true
  | .fin => true
  | .tabrd _ => true
  | .new => false
  | .newp _ => false
  | .newps _ _ => false
  | .rst => false

/-- UPD or TABRD: the commands of a table readout with updates between (R161). -/
def updOrTabrd : Instr → Bool
  | .upd _ => true
  | .tabrd _ => true
  | .new => false
  | .newp _ => false
  | .newps _ _ => false
  | .fin => false
  | .rst => false

end Sys2Proof.Machine
end

