-- ==== Sys2Proof/Certificates/Slice0/Obligations.lean ====
section
/-! DEFINITION. The statements for the provers. Each docstring names the rules of the spec it formalises; OBLIGATIONS.json
lists them. The commands' frames are part of their results: a next state written as an update of `s` says that
every other element, OUT and the stream are as they were. -/

open Sys2Proof Sys2Proof.Machine

/-! ## Encoding (30_encoding.md) -/

/-- Words written out from the opcode map of R75 and the examples of R73, R77, R78 and R86 decode as they say. -/
def Obligations.WrittenOutWordsDecode : Prop :=
  decode [0x01000000#32] = .command .new [] ∧
  decode [0x02000000#32, 0x01000000#32] = .command (.newp 0x01000000#32) [] ∧
  decode [0x03000000#32, 0x82F63B78#32, 0x00000000#32] = .command (.newps 0x82F63B78#32 0x00000000#32) [] ∧
  decode [0x10000031#32] = .command (.upd 0x31#8) [] ∧
  decode [0x20000000#32] = .command .fin [] ∧
  decode [0x30000000#32] = .command .rst [] ∧
  decode [0x400000FF#32] = .command (.tabrd 0xFF#8) [] ∧
  decode [0x10000100#32] = .rejected .reservedFieldNonzero 0x10000100#32 ∧
  decode [0x05000000#32] = .rejected .undefinedOpcode 0x05000000#32 ∧
  decode [0x00000000#32] = .rejected .undefinedOpcode 0x00000000#32

/-- Decoding the encoding of any command, with any words after it, gives the command back, with every operand at
every value (R70 to R75). -/
def Obligations.DecodeOfEncodeIsTheCommand : Prop :=
  ∀ (i : Instr) (rest : List Word), decode (encode i ++ rest) = .command i rest

/-- Every sequence of words that decodes to a command is that command's encoding, so no bit of a word is ignored:
"Strict checking makes every word decode one way" (D24, R75, R78). -/
def Obligations.DecodedWordsAreTheEncoding : Prop :=
  ∀ (ws : List Word) (i : Instr) (rest : List Word), decode ws = .command i rest → ws = encode i ++ rest

/-- The match and mask columns of R75: a command word passes the decoder's checks for an operation code exactly when
`(w & mask) = match` holds for its row, and at most one row matches any word. -/
def Obligations.MatchAndMaskDecideTheRow : Prop :=
  (∀ (w : Word) (op : Opcode),
    w &&& op.mask = op.pattern ↔ Opcode.ofByte (opField w) = some op ∧ reservedNonzero op w = false) ∧
  (∀ (w : Word) (op op' : Opcode), w &&& op.mask = op.pattern → w &&& op'.mask = op'.pattern → op = op')

/-- R77: the listed values of `OP` are 249, and a command word with one of them raises UNDEFINED_OPCODE (cause 1) and
has no other effect, the all-zero word too. -/
def Obligations.UndefinedOpcodeRaisesCauseOne : Prop :=
  (∀ (s : State) (w : Word), Accepting s → s.stream[s.cp]? = some w →
    ((w >>> 24).toNat = 0x00 ∨ (0x04 ≤ (w >>> 24).toNat ∧ (w >>> 24).toNat ≤ 0x0F) ∨
      (0x11 ≤ (w >>> 24).toNat ∧ (w >>> 24).toNat ≤ 0x1F) ∨ (0x21 ≤ (w >>> 24).toNat ∧ (w >>> 24).toNat ≤ 0x2F) ∨
      (0x31 ≤ (w >>> 24).toNat ∧ (w >>> 24).toNat ≤ 0x3F) ∨ (0x41 ≤ (w >>> 24).toNat ∧ (w >>> 24).toNat ≤ 0xFF)) →
    step s = .next (faultState 1#4 w s)) ∧
  (∀ s : State, Accepting s → s.stream[s.cp]? = some 0x00000000#32 →
    step s = .next (faultState 1#4 0x00000000#32 s)) ∧
  ((List.range 256).filter fun k => (Opcode.ofByte (BitVec.ofNat 8 k)).isNone).length = 249

/-- R78: a defined `OP` with a non-zero bit in a field that must be 0 raises RESERVED_FIELD_NONZERO (cause 2) and has
no other effect; only the command word is consumed, whatever words follow it. -/
def Obligations.ReservedFieldRaisesCauseTwo : Prop :=
  ∀ (s : State) (w : Word), Accepting s → s.stream[s.cp]? = some w →
    ((w >>> 24 = 0x10#32 ∨ w >>> 24 = 0x40#32) ∧ (w >>> 8) &&& 0x0000FFFF#32 ≠ 0#32 ∨
     (w >>> 24 = 0x01#32 ∨ w >>> 24 = 0x02#32 ∨ w >>> 24 = 0x03#32 ∨ w >>> 24 = 0x20#32 ∨ w >>> 24 = 0x30#32) ∧
       w &&& 0x00FFFFFF#32 ≠ 0#32) →
    step s = .next (faultState 2#4 w s)

/-- R81: a NEWP or NEWPS whose immediate words have not all arrived is not executed; the block has no step, the run is
not final, and a hardware reset during the wait discards the words already sent. "No step" is written as the stop
`noStepWaiting`, whose name is the model's (log entry 3). -/
def Obligations.IncompleteCommandWaits : Prop :=
  ∀ s : State, Accepting s →
    (s.pending = [0x02000000#32] ∨ s.pending = [0x03000000#32] ∨ ∃ x, s.pending = [0x03000000#32, x]) →
    step s = .fault .noStepWaiting ∧ RunEnd.condition .waiting s ∧ RunEnd.final .waiting = false ∧
      ∀ S : List Word, (hardwareReset S s).pending = S

/-! ## Dispatch and faults (30_encoding.md R76, 60_exceptions.md) -/

/-- R76: when the words at `cp` decode to a command, the step is the execution of that command, and an accepted command
moves `cp` past its words. -/
def Obligations.StepExecutesTheDecodedCommand : Prop :=
  ∀ (s : State) (i : Instr) (rest : List Word), Accepting s → decode (s.stream.drop s.cp) = .command i rest →
    step s = exec i s ∧ ∀ s', exec i s = .next s' → s'.mode ≠ .faulted → s'.cp = s.cp + (encode i).length

/-- R201 and R203: after a step that took the word `w`, CAUSE is the first condition that `w` meets in the order
UNDEFINED_OPCODE, RESERVED_FIELD_NONZERO, NOT_CONFIGURED, and it is unchanged where `w` meets none. -/
def Obligations.CauseIsTheFirstInPriority : Prop :=
  ∀ (s s' : State) (w : Word), s.stream[s.cp]? = some w → step s = .next s' →
    s'.cause =
      match Opcode.ofByte (opField w) with
      | none => 1#4
      | some op =>
        if reservedNonzero op w = true then 2#4
        else if s.mode = .unconfigured ∧ (op = .upd ∨ op = .fin ∨ op = .rst ∨ op = .tabrd) then 3#4
        else s.cause

/-- R202: a step that enters FAULTED writes exactly MODE, CAUSE, ERR_WORD (the word at `cp`), ERR_CP (that `cp`) and
`cp + 1`; POLY, SEED, TABLE, STATE and OUT keep their values. -/
def Obligations.FaultEntryIsPrecise : Prop :=
  ∀ s s' : State, step s = .next s' → s'.mode = .faulted →
    ∃ (w : Word) (code : BitVec 4), s.stream[s.cp]? = some w ∧ (code = 1#4 ∨ code = 2#4 ∨ code = 3#4) ∧
      s' = faultState code w s

/-- R204: in FAULTED no command is accepted and the block has no step; STATUS and ERR_WORD stay readable, the state is
not final, and hardware reset leaves FAULTED. "No step" is written as the stop `noStepFaulted`, whose name is the
model's (log entry 3). -/
def Obligations.FaultedAcceptsNothing : Prop :=
  ∀ s : State, s.mode = .faulted → s.cause.toNat < 4 →
    step s = .fault .noStepFaulted ∧ (∀ i : Instr, exec i s = .fault .noStepFaulted) ∧
      (statusPort s).getLsbD 1 = true ∧ errWordPort s = s.errWord ∧ RunEnd.final .faulted = false ∧
      ∀ S : List Word, (hardwareReset S s).mode = .unconfigured

/-- 93_implementation_defined.md I13: the model refuses a state whose CAUSE is a reserved code. That `step` makes this
test, and makes it first, is the model's choice (log entry 8). -/
def Obligations.ReservedCauseIsRefused : Prop :=
  ∀ s : State, 4 ≤ s.cause.toNat → step s = .refused (.reservedCause s.cause)

/-! ## Construction (40_construction.md) -/

/-- R101: NEW, accepted in UNCONFIGURED and READY, writes the defaults; its word with a non-zero bit in 23:0 raises
RESERVED_FIELD_NONZERO. -/
def Obligations.NewConstructsWithTheDefaults : Prop :=
  (∀ s : State, s.mode = .unconfigured ∨ s.mode = .ready →
    exec .new s = .next { s with
      poly := 0xEDB88320#32, seed := 0xFFFFFFFF#32, table := genTable 0xEDB88320#32, state := 0xFFFFFFFF#32,
      constructed := true, mode := .ready, cp := s.cp + 1 }) ∧
  (∀ s s' : State, exec .new s = .next s' → (statusPort s').getLsbD 0 = true) ∧
  (∀ (s : State) (w : Word), Accepting s → s.stream[s.cp]? = some w → w >>> 24 = 0x01#32 →
    w &&& 0x00FFFFFF#32 ≠ 0#32 → step s = .next (faultState 2#4 w s))

/-- R102 and R107: NEWP writes its operand to POLY, whatever its value, and the default seed; its command word with a
non-zero bit in 23:0 faults and `I1` is not taken. Until `I1` has arrived the block waits, with no fault of its own
(R102): that wait is written as the stop `noStepWaiting`, whose name is the model's (log entry 3). -/
def Obligations.NewpHonoursItsPolynomial : Prop :=
  (∀ (s : State) (p : Word), s.mode = .unconfigured ∨ s.mode = .ready →
    exec (.newp p) s = .next { s with
      poly := p, seed := 0xFFFFFFFF#32, table := genTable p, state := 0xFFFFFFFF#32, constructed := true,
      mode := .ready, cp := s.cp + 2 }) ∧
  (∀ (s s' : State) (p : Word), exec (.newp p) s = .next s' → (statusPort s').getLsbD 0 = true) ∧
  (∀ (s : State) (w : Word), Accepting s → s.stream[s.cp]? = some w → w >>> 24 = 0x02#32 →
    w &&& 0x00FFFFFF#32 ≠ 0#32 → step s = .next (faultState 2#4 w s)) ∧
  (∀ s : State, Accepting s → s.pending = [0x02000000#32] → step s = .fault .noStepWaiting)

/-- R103: NEWPS writes both operands; its command word with a non-zero bit in 23:0 faults. Until both immediates have
arrived the block waits, with no fault of its own: that wait is written as the stop `noStepWaiting`, whose name is the
model's (log entry 3). -/
def Obligations.NewpsTakesPolynomialAndSeed : Prop :=
  (∀ (s : State) (p sd : Word), s.mode = .unconfigured ∨ s.mode = .ready →
    exec (.newps p sd) s = .next { s with
      poly := p, seed := sd, table := genTable p, state := sd, constructed := true, mode := .ready,
      cp := s.cp + 3 }) ∧
  (∀ (s s' : State) (p sd : Word), exec (.newps p sd) s = .next s' → (statusPort s').getLsbD 0 = true) ∧
  (∀ (s : State) (w : Word), Accepting s → s.stream[s.cp]? = some w → w >>> 24 = 0x03#32 →
    w &&& 0x00FFFFFF#32 ≠ 0#32 → step s = .next (faultState 2#4 w s)) ∧
  (∀ s : State, Accepting s → (s.pending = [0x03000000#32] ∨ ∃ x, s.pending = [0x03000000#32, x]) →
    step s = .fault .noStepWaiting)

/-- R108: a construction writes POLY, SEED, TABLE, STATE and MODE afresh, so nothing of the state before it survives in
them; no other command writes POLY or SEED. -/
def Obligations.ConstructionForgetsTheOldEngine : Prop :=
  (∀ (i : Instr) (s₁ s₂ s₁' s₂' : State), isConstruction i = true → exec i s₁ = .next s₁' → exec i s₂ = .next s₂' →
    s₁'.poly = s₂'.poly ∧ s₁'.seed = s₂'.seed ∧ s₁'.table = s₂'.table ∧ s₁'.state = s₂'.state ∧
      s₁'.mode = .ready ∧ s₂'.mode = .ready) ∧
  (∀ (i : Instr) (s s' : State), isConstruction i = false → exec i s = .next s' →
    s'.poly = s.poly ∧ s'.seed = s.seed)

/-- R100: every entry of the generated table is eight shift-and-XOR steps from its index, with the source's test
`(k & 1) == 1`. -/
def Obligations.TableEntryIsEightShiftXorSteps : Prop :=
  ∀ (p : Word) (i : Fin 256),
    (genTable p)[i.val]'i.isLt =
      (fun k : Word => if k &&& 1#32 = 1#32 then (k >>> 1) ^^^ p else k >>> 1)^[8] (BitVec.ofNat 32 i.val)

/-- R104: the properties of the generator, and the three default entries it names. -/
def Obligations.GeneratorProperties : Prop :=
  (∀ p : Word, tableEntry (genTable p) 0x00#8 = 0#32) ∧
  (∀ p : Word, tableEntry (genTable p) 0x80#8 = p) ∧
  (∀ (p : Word) (i j : Byte),
    tableEntry (genTable p) (i ^^^ j) = tableEntry (genTable p) i ^^^ tableEntry (genTable p) j) ∧
  (∀ i : Byte, tableEntry (genTable 0#32) i = 0#32) ∧
  (∀ p q : Word, p = q → genTable p = genTable q) ∧
  tableEntry (genTable 0xEDB88320#32) 0x01#8 = 0x77073096#32 ∧
  tableEntry (genTable 0xEDB88320#32) 0x80#8 = 0xEDB88320#32 ∧
  tableEntry (genTable 0xEDB88320#32) 0xFF#8 = 0x2D02EF8D#32

/-! ## Update (41_update.md) -/

/-- R120: UPD in READY; NOT_CONFIGURED in UNCONFIGURED; RESERVED_FIELD_NONZERO for bits 23:8. The index of the formula
lies in the table. -/
def Obligations.UpdFoldsOneByte : Prop :=
  (∀ (s : State) (b : Byte), s.mode = .ready →
    ∃ h : (b.setWidth 32 ^^^ (s.state &&& 0x000000FF#32)).toNat < 256,
      exec (.upd b) s = .next { s with
        state := (s.state >>> 8) ^^^ s.table[(b.setWidth 32 ^^^ (s.state &&& 0x000000FF#32)).toNat]'h,
        cp := s.cp + 1 }) ∧
  (∀ (s : State) (b : Byte), s.mode = .unconfigured →
    exec (.upd b) s = .next (faultState 3#4 (0x10000000#32 ||| b.setWidth 32) s)) ∧
  (∀ (s : State) (w : Word), Accepting s → s.stream[s.cp]? = some w → w >>> 24 = 0x10#32 →
    (w >>> 8) &&& 0x0000FFFF#32 ≠ 0#32 → step s = .next (faultState 2#4 w s))

/-- R8 and R50: the index of the update formula lies in 0..255, so reading it as 8 bits loses nothing. -/
def Obligations.UpdateIndexFitsTheTable : Prop :=
  ∀ (b : Byte) (v : Word), (updIndexWord b v).toNat < 256 ∧ (updIndex b v).setWidth 32 = updIndexWord b v

/-- The corner cases of R120 for every polynomial: a byte equal to `STATE[7:0]` shifts STATE right by 8, and from
`STATE = 0` the byte `b` gives `TABLE[b]`. -/
def Obligations.UpdateCornerCases : Prop :=
  (∀ p v : Word, updateByte (genTable p) v (v.setWidth 8) = v >>> 8) ∧
  (∀ (p : Word) (b : Byte), updateByte (genTable p) 0#32 b = tableEntry (genTable p) b)

/-- R121 on the machine: the UPDs of a byte sequence, in a READY state, fold its bytes into STATE from the left and
change nothing else but `cp`. -/
def Obligations.StreamedUpdatesFoldFromTheLeft : Prop :=
  ∀ (s : State) (m : List Byte), s.mode = .ready →
    runInstrs (expandUpds m) s = .next { s with
      state := m.foldl (fun u b => (u >>> 8) ^^^ tableEntry s.table (updIndex b u)) s.state, cp := s.cp + m.length }

/-- R122: `Upd*(Upd*(s, A), B) = Upd*(s, A ++ B)`, and in the block any number of FIN and TABRD commands may stand
between the bytes: the state depends on the bytes fed alone. -/
def Obligations.ChunkingInvariance : Prop :=
  (∀ (t : Vector Word 256) (v : Word) (A B : List Byte), updStar t (updStar t v A) B = updStar t v (A ++ B)) ∧
  (∀ (is : List Instr) (p sd v : Word) (s : State), is.all feedsOrReads = true → ReadyWith p sd v s →
    ∃ s', runInstrs is s = .next s' ∧ ReadyWith p sd (updStar (genTable p) v (fedBytes is)) s')

/-- R123: with `POLY = 0` the bytes do not matter; the result is `s >> (8 * len)`, and 0 once four bytes are fed. -/
def Obligations.ZeroPolynomialIgnoresInput : Prop :=
  ∀ (v : Word) (m : List Byte),
    updStar (genTable 0#32) v m = v >>> (8 * m.length) ∧ (4 ≤ m.length → updStar (genTable 0#32) v m = 0#32)

/-! ## Finalize, reset and hash (42_finalize_reset.md) -/

/-- R140: FIN in READY emits the four bytes of `not(STATE)`, byte0 = bits 31:24 first, and writes nothing else;
NOT_CONFIGURED in UNCONFIGURED; RESERVED_FIELD_NONZERO for bits 23:0. -/
def Obligations.FinEmitsTheInvertedState : Prop :=
  (∀ s : State, s.mode = .ready →
    exec .fin s = .next { s with
      out := s.out ++ [((~~~s.state) >>> 24).setWidth 8, ((~~~s.state) >>> 16).setWidth 8,
        ((~~~s.state) >>> 8).setWidth 8, (~~~s.state).setWidth 8],
      cp := s.cp + 1 }) ∧
  (∀ s : State, s.mode = .unconfigured → exec .fin s = .next (faultState 3#4 0x20000000#32 s)) ∧
  (∀ (s : State) (w : Word), Accepting s → s.stream[s.cp]? = some w → w >>> 24 = 0x20#32 →
    w &&& 0x00FFFFFF#32 ≠ 0#32 → step s = .next (faultState 2#4 w s))

/-- R52: `BE4` puts bits 31:24 first and bits 7:0 last. -/
def Obligations.DigestBytesAreBigEndian : Prop :=
  ∀ a b c d : Byte, be4 (a ++ b ++ c ++ d) = [a, b, c, d]

/-- R24 with 90_conflicts.md C1: FIN reads neither SEED nor POLY nor TABLE. Whatever they hold, it answers the same. -/
def Obligations.FinReadsOnlyTheState : Prop :=
  ∀ (s s' : State) (p sd : Word) (t : Vector Word 256), exec .fin s = .next s' →
    exec .fin { s with poly := p, seed := sd, table := t } = .next { s' with poly := p, seed := sd, table := t }

/-- R141: RST in READY copies SEED into STATE and changes nothing else but `cp`; NOT_CONFIGURED in UNCONFIGURED;
RESERVED_FIELD_NONZERO for bits 23:0. -/
def Obligations.RstReloadsTheSeed : Prop :=
  (∀ s : State, s.mode = .ready → exec .rst s = .next { s with state := s.seed, cp := s.cp + 1 }) ∧
  (∀ s : State, s.mode = .unconfigured → exec .rst s = .next (faultState 3#4 0x30000000#32 s)) ∧
  (∀ (s : State) (w : Word), Accepting s → s.stream[s.cp]? = some w → w >>> 24 = 0x30#32 →
    w &&& 0x00FFFFFF#32 ≠ 0#32 → step s = .next (faultState 2#4 w s))

/-- R231: with the same POLY and SEED, RST and construction leave equal POLY, SEED, TABLE and STATE, and equal MODE,
CAUSE and OUT. -/
def Obligations.RstEqualsReconstruction : Prop :=
  ∀ (p sd v : Word) (s : State), ReadyWith p sd v s →
    ∃ a b, exec .rst s = .next a ∧ exec (.newps p sd) s = .next b ∧ a.poly = b.poly ∧ a.seed = b.seed ∧
      a.table = b.table ∧ a.state = b.state ∧ a.mode = b.mode ∧ a.cause = b.cause ∧ a.out = b.out

/-- R142 with R84: `hash` in READY leaves STATE at `Upd*(SEED, bytes)` and emits the digest; in UNCONFIGURED its first
command raises NOT_CONFIGURED. -/
def Obligations.HashIsResetUpdateFinalize : Prop :=
  (∀ (p sd v : Word) (s : State) (m : List Byte), ReadyWith p sd v s →
    runInstrs (expandHash m) s = .next { s with
      state := updStar (genTable p) sd m,
      out := s.out ++ be4 (~~~(updStar (genTable p) sd m)),
      cp := s.cp + (m.length + 2) }) ∧
  (∀ (s : State) (m : List Byte), s.mode = .unconfigured →
    ∃ is, expandHash m = .rst :: is ∧ exec .rst s = .next (faultState 3#4 0x30000000#32 s))

/-- R143: FIN does not end the computation. Between two parts of a message it emits the first part's digest, and the
FIN at the end emits the digest of all the bytes since the seed was loaded, as one input. -/
def Obligations.FinDoesNotEndTheComputation : Prop :=
  ∀ (p sd : Word) (s : State) (A B : List Byte), ReadyWith p sd sd s →
    runInstrs (expandUpds A ++ .fin :: (expandUpds B ++ [.fin])) s = .next { s with
      state := updStar (genTable p) sd (A ++ B),
      out := s.out ++ be4 (crc p sd A) ++ be4 (crc p sd (A ++ B)),
      cp := s.cp + (A.length + B.length + 2) }

/-- R144: over the command stream, a construction with `(p, s)` (NEW, NEWP and NEWPS alike), or RST, then the UPDs of
`m` and one FIN emit `BE4(CRC(p, s, m))`; with the four properties of `CRC` that the rule lists. -/
def Obligations.RunEmitsTheDigest : Prop :=
  (∀ (c : Instr) (p sd : Word) (m : List Byte) (rest : List Word) (s t : State), constructionOperands c = some (p, sd) →
    Accepting s → s.pending = encodeAll (c :: (expandUpds m ++ [.fin])) ++ rest →
    t = { s with
      poly := p, seed := sd, table := genTable p, constructed := true, mode := .ready,
      state := updStar (genTable p) sd m, out := s.out ++ be4 (crc p sd m),
      cp := s.cp + ((encode c).length + m.length + 1) } →
    Host.Core.run Sys2Proof.core (m.length + 2) s = .next t) ∧
  (∀ (p sd v : Word) (m : List Byte) (rest : List Word) (s t : State), Accepting s → ReadyWith p sd v s →
    s.pending = encodeAll (expandHash m) ++ rest →
    t = { s with
      state := updStar (genTable p) sd m, out := s.out ++ be4 (crc p sd m), cp := s.cp + (m.length + 2) } →
    Host.Core.run Sys2Proof.core (m.length + 2) s = .next t) ∧
  crc 0xEDB88320#32 0xFFFFFFFF#32 [0x31#8, 0x32#8, 0x33#8, 0x34#8, 0x35#8, 0x36#8, 0x37#8, 0x38#8, 0x39#8] =
    0xCBF43926#32 ∧
  (∀ p sd : Word, crc p sd [] = ~~~sd) ∧
  (∀ (p sd : Word) (A B : List Byte), crc p sd (A ++ B) = ~~~(updStar (genTable p) (updStar (genTable p) sd A) B)) ∧
  (∀ (p q sd sd' : Word) (m m' : List Byte), p = q → sd = sd' → m = m' → crc p sd m = crc q sd' m')

/-! ## Table readout (43_table_read.md) -/

/-- R160: TABRD in READY emits the four bytes of the entry, most significant first, for every index, and writes nothing
else; NOT_CONFIGURED in UNCONFIGURED; RESERVED_FIELD_NONZERO for bits 23:8. -/
def Obligations.TabrdEmitsTheEntry : Prop :=
  (∀ (s : State) (i : Byte), s.mode = .ready →
    exec (.tabrd i) s = .next { s with
      out := s.out ++ [((s.table[i.toNat]'i.isLt) >>> 24).setWidth 8, ((s.table[i.toNat]'i.isLt) >>> 16).setWidth 8,
        ((s.table[i.toNat]'i.isLt) >>> 8).setWidth 8, (s.table[i.toNat]'i.isLt).setWidth 8],
      cp := s.cp + 1 }) ∧
  (∀ (s : State) (i : Byte), s.mode = .unconfigured →
    exec (.tabrd i) s = .next (faultState 3#4 (0x40000000#32 ||| i.setWidth 32) s)) ∧
  (∀ (s : State) (w : Word), Accepting s → s.stream[s.cp]? = some w → w >>> 24 = 0x40#32 →
    (w >>> 8) &&& 0x0000FFFF#32 ≠ 0#32 → step s = .next (faultState 2#4 w s))

/-- R161: two READY engines with the same polynomial, whatever their seeds and states, that read out the same indices
with any UPDs between, emit the same bytes, 4 for each readout; so `tabrd 0` to `tabrd 255` emit the same 1024. -/
def Obligations.TableReadoutDependsOnThePolynomialOnly : Prop :=
  ∀ (p sd₁ sd₂ v₁ v₂ : Word) (s₁ s₂ : State) (is₁ is₂ : List Instr),
    ReadyWith p sd₁ v₁ s₁ → ReadyWith p sd₂ v₂ s₂ → is₁.all updOrTabrd = true → is₂.all updOrTabrd = true →
    readIndices is₁ = readIndices is₂ →
    ∃ s₁' s₂' bytes, runInstrs is₁ s₁ = .next s₁' ∧ runInstrs is₂ s₂ = .next s₂' ∧
      s₁'.out = s₁.out ++ bytes ∧ s₂'.out = s₂.out ++ bytes ∧ bytes.length = 4 * (readIndices is₁).length

/-! ## State and ports (10_state.md) -/

/-- R37 (with R230): each element after hardware reset, in every mode and at any time, and after NEW from there. The six
elements of R37 that are unwritten are so (`State.written`); the clauses say nothing of what their storage holds, which
is the model's choice (log entry 1). -/
def Obligations.ResetAndConstructionValues : Prop :=
  (∀ (S : List Word) (s : State),
    (∀ e : Element, (hardwareReset S s).written e = false) ∧
    (hardwareReset S s).mode = .unconfigured ∧ (hardwareReset S s).cause = 0#4 ∧
    errWordPort (hardwareReset S s) = 0x00000000#32 ∧ statusPort (hardwareReset S s) = 0x00000000#32 ∧
    (hardwareReset S s).cp = 0 ∧ (hardwareReset S s).out = [] ∧ (hardwareReset S s).stream = S) ∧
  hardwareReset [] State.reset = State.reset ∧
  (∀ (S : List Word) (s : State), ∃ t, exec .new (hardwareReset S s) = .next t ∧
    t.poly = 0xEDB88320#32 ∧ t.seed = 0xFFFFFFFF#32 ∧ t.table = genTable 0xEDB88320#32 ∧
    t.state = 0xFFFFFFFF#32 ∧ (∀ e : Element, t.written e = true ↔ e ≠ .errWord ∧ e ≠ .errCp) ∧
    t.mode = .ready ∧ t.cause = 0#4 ∧ t.errWord = (hardwareReset S s).errWord ∧
    t.errCp = (hardwareReset S s).errCp ∧ errWordPort t = 0x00000000#32 ∧ statusPort t = 0x00000001#32 ∧
    t.cp = 1 ∧ t.out = [])

/-- R32: every field of STATUS, the hardwired zeros, that CFG and FAULT are never both 1, and the value after reset. -/
def Obligations.StatusIsAViewOfModeAndCause : Prop :=
  (∀ s : State,
    ((statusPort s).getLsbD 0 = true ↔ s.mode = .ready) ∧ ((statusPort s).getLsbD 1 = true ↔ s.mode = .faulted) ∧
    (statusPort s).extractLsb' 2 2 = 0#2 ∧ (statusPort s).extractLsb' 4 4 = s.cause ∧
    (statusPort s).extractLsb' 8 24 = 0#24 ∧
    ¬((statusPort s).getLsbD 0 = true ∧ (statusPort s).getLsbD 1 = true)) ∧
  statusPort State.reset = 0x00000000#32

/-- R33: the ERR_WORD port reads ERR_WORD in FAULTED and 0 otherwise. In a FAULTED state that meets the invariant it reads
the word of the stream at ERR_CP, "the first word of the command that faulted, exactly as received" (R31). -/
def Obligations.ErrWordPortReadsTheFaultingWord : Prop :=
  (∀ s : State, s.mode = .faulted → errWordPort s = s.errWord) ∧
  (∀ s : State, s.mode ≠ .faulted → errWordPort s = 0x00000000#32) ∧
  (∀ s : State, Inv s → s.mode = .faulted → s.stream[s.errCp]? = some (errWordPort s))

/-- R22 and R85: `cp` starts at 0 and every step moves it forward, by 1 on a fault and by the command's length (1, 2 or
3) otherwise; no command transfers control and none changes the stream. -/
def Obligations.CommandPointerNeverJumps : Prop :=
  State.reset.cp = 0 ∧
  ∀ s s' : State, step s = .next s' →
    s'.stream = s.stream ∧
    ((s'.mode = .faulted ∧ s'.cp = s.cp + 1) ∨
     (s'.mode ≠ .faulted ∧ ∃ i rest, decode s.pending = .command i rest ∧ s'.cp = s.cp + (encode i).length ∧
       1 ≤ (encode i).length ∧ (encode i).length ≤ 3))

/-- R29: OUT starts empty; a step only appends to it, 4 bytes for a FIN or a TABRD and nothing for any other word. -/
def Obligations.ResponseStreamOnlyGrows : Prop :=
  State.reset.out = [] ∧
  ∀ s s' : State, step s = .next s' →
    s'.out = s.out ∨
    ∃ i rest bytes, decode s.pending = .command i rest ∧ (i = .fin ∨ ∃ k, i = .tabrd k) ∧ bytes.length = 4 ∧
      s'.out = s.out ++ bytes

/-- R36, the write columns of the access matrix (POLY, SEED, TABLE, STATE, MODE, OUT, CAUSE and ERR_WORD), for every
command that answers a next state: the frame of all seven commands. MODE is written by a construction and by a fault
alone. -/
def Obligations.CommandsWriteOnlyTheirElements : Prop :=
  ∀ (i : Instr) (s s' : State), exec i s = .next s' →
    s'.stream = s.stream ∧
    (isConstruction i = false → s'.poly = s.poly ∧ s'.seed = s.seed ∧ s'.table = s.table ∧
      s'.constructed = s.constructed) ∧
    (i = .fin ∨ (∃ k, i = .tabrd k) → s'.state = s.state) ∧
    (isConstruction i = false → s'.mode ≠ .faulted → s'.mode = s.mode) ∧
    (emitsResponse i = false → s'.out = s.out) ∧
    (s'.mode ≠ .faulted → s'.cause = s.cause ∧ s'.errWord = s.errWord ∧ s'.errCp = s.errCp) ∧
    (s'.mode = .faulted → s'.poly = s.poly ∧ s'.seed = s.seed ∧ s'.table = s.table ∧ s'.state = s.state ∧
      s'.constructed = s.constructed ∧ s'.out = s.out)

/-- R55: every command other than UPD, when repeated, leaves the same STATE, POLY, SEED and TABLE. -/
def Obligations.CommandsOtherThanUpdAreIdempotent : Prop :=
  ∀ (i : Instr) (s s' s'' : State), (∀ b, i ≠ .upd b) → exec i s = .next s' → exec i s' = .next s'' →
    s''.state = s'.state ∧ s''.poly = s'.poly ∧ s''.seed = s'.seed ∧ s''.table = s'.table

/-! ## Invariant -/

/-- The state after hardware reset meets the invariant, whatever stream the host then sends. -/
def Obligations.ResetMeetsTheInvariant : Prop :=
  Inv State.reset ∧ ∀ (S : List Word) (s : State), Inv (hardwareReset S s)

/-- Every step from a state that meets the invariant leads to a state that meets it: the table is the generated table
of POLY once a construction has been executed (R26), that mark, the fault record and CAUSE agree with MODE (R28, R30,
R31), `cp` stays
in the stream and OUT holds whole groups of 4 bytes. -/
def Obligations.StepKeepsTheInvariant : Prop :=
  ∀ s s' : State, Inv s → step s = .next s' → Inv s'

/-- The host's sending of words keeps the invariant (R236). -/
def Obligations.HostSendKeepsTheInvariant : Prop :=
  ∀ (ws : List Word) (s : State), Inv s → Inv (hostSend ws s)

/-- R35: in every state, a command that reads an unwritten element faults and picks no value: in UNCONFIGURED it raises
NOT_CONFIGURED (R201), in FAULTED it is not accepted (R204, as the stop of log entry 3), and in READY no element it
reads is unwritten. So a command that executes has read written elements alone. Which elements are unwritten in a state
is `State.written` (log entry 1). -/
def Obligations.NoCommandReadsAnUnwrittenElement : Prop :=
  (∀ (s : State) (i : Instr) (e : Element), readsElement i e = true → s.written e = false →
    s.mode ≠ .ready ∧
    (s.mode = .unconfigured → exec i s = .next (faultState 3#4 (commandWord i) s)) ∧
    (s.mode = .faulted → exec i s = .fault .noStepFaulted)) ∧
  (∀ (s s' : State) (i : Instr) (e : Element), readsElement i e = true → exec i s = .next s' → s'.mode ≠ .faulted →
    s.written e = true) ∧
  (∀ s : State, s.mode = .unconfigured →
    s.written .poly = false ∧ s.written .seed = false ∧ s.written .table = false ∧ s.written .state = false) ∧
  (∀ (s : State) (i : Instr), isConstruction i = false → s.mode = .unconfigured →
    exec i s = .next (faultState 3#4 (commandWord i) s))

/-- R35, "An element that is unwritten holds no value": what the storage of unwritten elements holds (log entry 1) is
never seen. Two states that agree but for it run alike for any number of steps: they stop in the same way, or reach
states that again agree but for it, with the same OUT, STATUS and ERR_WORD port. -/
def Obligations.UnwrittenValuesAreNeverSeen : Prop :=
  ∀ (n : Nat) (a b : State), Inv a → Inv b → AgreeOnWritten a b →
    (∀ a', Host.Core.run Sys2Proof.core n a = .next a' → ∃ b', Host.Core.run Sys2Proof.core n b = .next b' ∧
      AgreeOnWritten a' b' ∧ observation a' = observation b' ∧ errWordPort a' = errWordPort b') ∧
    (∀ r, Host.Core.run Sys2Proof.core n a = .fault r → Host.Core.run Sys2Proof.core n b = .fault r) ∧
    (∀ r, Host.Core.run Sys2Proof.core n a ≠ .refused r)

/-- R200: in every READY state, every command with every operand completes, and the block stays READY with CAUSE as it
was. -/
def Obligations.EveryCommandCompletesInReady : Prop :=
  ∀ (s : State) (i : Instr), s.mode = .ready → ∃ s', exec i s = .next s' ∧ s'.mode = .ready ∧ s'.cause = s.cause

/-- R232: after hardware reset any of UPD, FIN, RST and TABRD, issued first, raises NOT_CONFIGURED; after one
construction command, commands in any order complete with no fault. -/
def Obligations.BootNeedsOneConstruction : Prop :=
  (∀ (S : List Word) (s : State) (i : Instr), isConstruction i = false →
    exec i (hardwareReset S s) = .next (faultState 3#4 (commandWord i) (hardwareReset S s))) ∧
  (∀ (S : List Word) (s : State) (c : Instr) (is : List Instr), isConstruction c = true →
    ∃ s', runInstrs (c :: is) (hardwareReset S s) = .next s' ∧ s'.mode = .ready ∧ s'.cause = 0#4)

/-! ## Runs (70_reset_and_hazards.md) -/

/-- R58 and R76: a block that takes the words of a sequence of commands, one step a command, does what the commands do
executed one after another. A command that the mode does not accept does there what its meaning does: NOT_CONFIGURED is
checked in the meanings, after decoding, and FAULTED in `step` and in each meaning (log entry 11). -/
def Obligations.StreamRunsItsCommandsInOrder : Prop :=
  ∀ (is : List Instr) (rest : List Word) (s : State), s.cause.toNat < 4 → s.pending = encodeAll is ++ rest →
    Host.Core.run Sys2Proof.core is.length s = runInstrs is s

/-- R238: the three ends of a run are exactly the states with no step, each with its own stop, and only `completed` is
final. The stops' names are the model's (log entry 3). -/
def Obligations.RunEndsAreTheStatesWithoutStep : Prop :=
  (∀ s : State, Inv s →
    (∀ e : RunEnd, e.condition s ↔ step s = .fault e.stop) ∧
    ((∀ s', step s ≠ .next s') ↔ ∃ e : RunEnd, e.condition s)) ∧
  (∀ e : RunEnd, e.final = true ↔ e = .completed)

/-- R238 with R239: every run over a finite stream ends, after at most one step for each word not yet consumed, in one
of the three ends. Each end has no step, which is written as its stop; the stops' names are the model's (log entry 3). -/
def Obligations.EveryRunEnds : Prop :=
  ∀ s : State, Inv s →
    ∃ (n : Nat) (s' : State) (e : RunEnd), n ≤ s.stream.length - s.cp ∧
      Host.Core.run Sys2Proof.core n s = .next s' ∧ step s' = .fault e.stop ∧ e.condition s'

/-! ## Assembler (30_encoding.md section 6) -/

/-- The table of R82: the words of each line, and the refusal of an operand out of range. -/
def Obligations.AssemblerLinesAndRanges : Prop :=
  assembleLine .new = some [0x01000000#32] ∧
  assembleLine .fin = some [0x20000000#32] ∧
  assembleLine .rst = some [0x30000000#32] ∧
  (∀ p : Nat, assembleLine (.newp p) =
    if p ≤ 0xFFFFFFFF then some [0x02000000#32, BitVec.ofNat 32 p] else none) ∧
  (∀ p s : Nat, assembleLine (.newps p s) =
    if p ≤ 0xFFFFFFFF ∧ s ≤ 0xFFFFFFFF then some [0x03000000#32, BitVec.ofNat 32 p, BitVec.ofNat 32 s] else none) ∧
  (∀ b : Nat, assembleLine (.upd b) =
    if b ≤ 255 then some [0x10000000#32 ||| BitVec.ofNat 32 b] else none) ∧
  (∀ i : Nat, assembleLine (.tabrd i) =
    if i ≤ 255 then some [0x40000000#32 ||| BitVec.ofNat 32 i] else none) ∧
  (∀ w : Nat, assembleLine (.word w) = if w ≤ 0xFFFFFFFF then some [BitVec.ofNat 32 w] else none)

/-- R83 and R84: `upds` is one UPD word per byte in order, `hash` is RST, the UPDs and FIN. -/
def Obligations.PseudoInstructionsExpand : Prop :=
  ∀ bs : List Nat, (∀ b ∈ bs, b ≤ 255) →
    assembleLine (.upds bs) = some (bs.map fun b => 0x10000000#32 ||| BitVec.ofNat 32 b) ∧
    assembleLine (.hash bs) =
      some (0x30000000#32 :: (bs.map fun b => 0x10000000#32 ||| BitVec.ofNat 32 b) ++ [0x20000000#32])
end

