-- ==== Sys2Proof/Laws/Decode.lean ====
section
/-! SUPPORT. The fields of an encoded command word, and the operation codes: the small lemmas of the encoding. -/

namespace Sys2Proof

/-- The operation code is read back from its value of `OP` (R75). -/
@[simp] theorem Opcode.ofByte_code (op : Opcode) : Opcode.ofByte op.code = some op := by
  cases op <;> rfl

/-- A byte is read as an operation code only where it is that code's value of `OP` (R75). -/
theorem Opcode.code_of_ofByte {b : Byte} {op : Opcode} (h : Opcode.ofByte b = some op) : op.code = b := by
  unfold Opcode.ofByte at h
  repeat' split at h
  all_goals first
    | cases h; done
    | (cases h; simp_all [Opcode.code])

/-! ## The fields of the layout of R71 -/

theorem opField_layout (op : Opcode) (b : Byte) : opField (op.code ++ 0#16 ++ b) = op.code := by
  cases op <;> revert b <;> decide +kernel

theorem imm8Field_layout (op : Opcode) (b : Byte) : imm8Field (op.code ++ 0#16 ++ b) = b := by
  cases op <;> revert b <;> decide +kernel

theorem reservedNonzero_layout (op : Opcode) (b : Byte) (h : op.takesByte = true ∨ b = 0#8) :
    reservedNonzero op (op.code ++ 0#16 ++ b) = false := by
  revert b
  cases op <;> decide +kernel

/-- `OP` of an encoded command word is the command's operation code (R71). -/
@[simp] theorem opField_commandWord (i : Instr) : opField (commandWord i) = i.opcode.code :=
  opField_layout i.opcode i.imm8

/-- `IMM8` of an encoded command word is the command's byte operand, or 0 (R71). -/
@[simp] theorem imm8Field_commandWord (i : Instr) : imm8Field (commandWord i) = i.imm8 :=
  imm8Field_layout i.opcode i.imm8

/-- The fields that must be 0 are 0 in an encoded command word (R78). -/
@[simp] theorem reservedNonzero_commandWord (i : Instr) :
    reservedNonzero i.opcode (commandWord i) = false :=
  reservedNonzero_layout i.opcode i.imm8 (by cases i <;> simp [Instr.opcode, Opcode.takesByte, Instr.imm8])

/-- The command words of the commands without a byte operand (R82). -/
@[simp] theorem commandWord_newp (p : Word) : commandWord (.newp p) = 0x02000000#32 :=
  show 0x02#8 ++ 0#16 ++ 0#8 = 0x02000000#32 by decide

@[simp] theorem commandWord_newps (p s : Word) : commandWord (.newps p s) = 0x03000000#32 :=
  show 0x03#8 ++ 0#16 ++ 0#8 = 0x03000000#32 by decide

/-- A command word is its three fields (R71). -/
theorem fields_eq_word (w : Word) : opField w ++ rsvField w ++ imm8Field w = w := by
  apply BitVec.eq_of_getLsbD_eq
  intro k hk
  rw [BitVec.getLsbD_append, BitVec.getLsbD_append]
  simp only [opField, rsvField, imm8Field, BitVec.getLsbD_extractLsb']
  by_cases h8 : k < 8
  · simp [h8]
  · by_cases h24 : k - 8 < 16
    · simp [h8, h24, show 8 + (k - 8) = k by omega]
    · simp [h8, h24, show 24 + (k - 8 - 16) = k by omega, show k - 8 - 16 < 8 by omega]

/-- Bits 23:0 are the fields `RSV` and `IMM8` (R71). -/
theorem fields_eq_low24 (w : Word) : rsvField w ++ imm8Field w = w.extractLsb' 0 24 := by
  apply BitVec.eq_of_getLsbD_eq
  intro k hk
  rw [BitVec.getLsbD_append]
  simp only [rsvField, imm8Field, BitVec.getLsbD_extractLsb']
  by_cases h8 : k < 8
  · simp [h8, show k < 24 by omega]
  · simp [h8, show 8 + (k - 8) = k by omega, show k - 8 < 16 by omega, show k < 24 by omega]

/-- The words of an encoding: as many as its operation code says (R75). -/
theorem encode_length (i : Instr) : (encode i).length = i.opcode.length := by
  cases i <;> rfl

end Sys2Proof
end

