-- ==== Sys2Proof/Laws/State.lean ====
section
/-! SUPPORT. One lemma per field per update of the state, each true by definition, so that no proof unfolds a record
update. -/

namespace Sys2Proof.Machine

variable (s : State)

/-! ## `State.advance`: `cp` past the words of a command (R22) -/

@[simp] theorem State.advance_poly (n : Nat) : (s.advance n).poly = s.poly := rfl
@[simp] theorem State.advance_seed (n : Nat) : (s.advance n).seed = s.seed := rfl
@[simp] theorem State.advance_table (n : Nat) : (s.advance n).table = s.table := rfl
@[simp] theorem State.advance_state (n : Nat) : (s.advance n).state = s.state := rfl
@[simp] theorem State.advance_constructed (n : Nat) : (s.advance n).constructed = s.constructed := rfl
@[simp] theorem State.advance_mode (n : Nat) : (s.advance n).mode = s.mode := rfl
@[simp] theorem State.advance_cause (n : Nat) : (s.advance n).cause = s.cause := rfl
@[simp] theorem State.advance_errWord (n : Nat) : (s.advance n).errWord = s.errWord := rfl
@[simp] theorem State.advance_errCp (n : Nat) : (s.advance n).errCp = s.errCp := rfl
@[simp] theorem State.advance_cp (n : Nat) : (s.advance n).cp = s.cp + n := rfl
@[simp] theorem State.advance_out (n : Nat) : (s.advance n).out = s.out := rfl
@[simp] theorem State.advance_stream (n : Nat) : (s.advance n).stream = s.stream := rfl

/-! ## `State.emit`: bytes on the response port (R29) -/

@[simp] theorem State.emit_poly (bs : List Byte) : (s.emit bs).poly = s.poly := rfl
@[simp] theorem State.emit_seed (bs : List Byte) : (s.emit bs).seed = s.seed := rfl
@[simp] theorem State.emit_table (bs : List Byte) : (s.emit bs).table = s.table := rfl
@[simp] theorem State.emit_state (bs : List Byte) : (s.emit bs).state = s.state := rfl
@[simp] theorem State.emit_constructed (bs : List Byte) : (s.emit bs).constructed = s.constructed := rfl
@[simp] theorem State.emit_mode (bs : List Byte) : (s.emit bs).mode = s.mode := rfl
@[simp] theorem State.emit_cause (bs : List Byte) : (s.emit bs).cause = s.cause := rfl
@[simp] theorem State.emit_errWord (bs : List Byte) : (s.emit bs).errWord = s.errWord := rfl
@[simp] theorem State.emit_errCp (bs : List Byte) : (s.emit bs).errCp = s.errCp := rfl
@[simp] theorem State.emit_cp (bs : List Byte) : (s.emit bs).cp = s.cp := rfl
@[simp] theorem State.emit_out (bs : List Byte) : (s.emit bs).out = s.out ++ bs := rfl
@[simp] theorem State.emit_stream (bs : List Byte) : (s.emit bs).stream = s.stream := rfl

/-! ## `State.setState`: the running state (R27) -/

@[simp] theorem State.setState_poly (v : Word) : (s.setState v).poly = s.poly := rfl
@[simp] theorem State.setState_seed (v : Word) : (s.setState v).seed = s.seed := rfl
@[simp] theorem State.setState_table (v : Word) : (s.setState v).table = s.table := rfl
@[simp] theorem State.setState_state (v : Word) : (s.setState v).state = v := rfl
@[simp] theorem State.setState_constructed (v : Word) : (s.setState v).constructed = s.constructed := rfl
@[simp] theorem State.setState_mode (v : Word) : (s.setState v).mode = s.mode := rfl
@[simp] theorem State.setState_cause (v : Word) : (s.setState v).cause = s.cause := rfl
@[simp] theorem State.setState_errWord (v : Word) : (s.setState v).errWord = s.errWord := rfl
@[simp] theorem State.setState_errCp (v : Word) : (s.setState v).errCp = s.errCp := rfl
@[simp] theorem State.setState_cp (v : Word) : (s.setState v).cp = s.cp := rfl
@[simp] theorem State.setState_out (v : Word) : (s.setState v).out = s.out := rfl
@[simp] theorem State.setState_stream (v : Word) : (s.setState v).stream = s.stream := rfl

/-! ## `State.construct`: a construction (R101 to R103) -/

@[simp] theorem State.construct_poly (p sd : Word) : (s.construct p sd).poly = p := rfl
@[simp] theorem State.construct_seed (p sd : Word) : (s.construct p sd).seed = sd := rfl
@[simp] theorem State.construct_table (p sd : Word) : (s.construct p sd).table = (genTable p) := rfl
@[simp] theorem State.construct_state (p sd : Word) : (s.construct p sd).state = sd := rfl
@[simp] theorem State.construct_constructed (p sd : Word) : (s.construct p sd).constructed = true := rfl
@[simp] theorem State.construct_mode (p sd : Word) : (s.construct p sd).mode = .ready := rfl
@[simp] theorem State.construct_cause (p sd : Word) : (s.construct p sd).cause = s.cause := rfl
@[simp] theorem State.construct_errWord (p sd : Word) : (s.construct p sd).errWord = s.errWord := rfl
@[simp] theorem State.construct_errCp (p sd : Word) : (s.construct p sd).errCp = s.errCp := rfl
@[simp] theorem State.construct_cp (p sd : Word) : (s.construct p sd).cp = s.cp := rfl
@[simp] theorem State.construct_out (p sd : Word) : (s.construct p sd).out = s.out := rfl
@[simp] theorem State.construct_stream (p sd : Word) : (s.construct p sd).stream = s.stream := rfl

/-! ## `State.raise`: fault entry (R202) -/

@[simp] theorem State.raise_poly (c : Cause) (w : Word) : (s.raise c w).poly = s.poly := rfl
@[simp] theorem State.raise_seed (c : Cause) (w : Word) : (s.raise c w).seed = s.seed := rfl
@[simp] theorem State.raise_table (c : Cause) (w : Word) : (s.raise c w).table = s.table := rfl
@[simp] theorem State.raise_state (c : Cause) (w : Word) : (s.raise c w).state = s.state := rfl
@[simp] theorem State.raise_constructed (c : Cause) (w : Word) : (s.raise c w).constructed = s.constructed := rfl
@[simp] theorem State.raise_mode (c : Cause) (w : Word) : (s.raise c w).mode = .faulted := rfl
@[simp] theorem State.raise_cause (c : Cause) (w : Word) : (s.raise c w).cause = c.code := rfl
@[simp] theorem State.raise_errWord (c : Cause) (w : Word) : (s.raise c w).errWord = w := rfl
@[simp] theorem State.raise_errCp (c : Cause) (w : Word) : (s.raise c w).errCp = s.cp := rfl
@[simp] theorem State.raise_cp (c : Cause) (w : Word) : (s.raise c w).cp = s.cp + 1 := rfl
@[simp] theorem State.raise_out (c : Cause) (w : Word) : (s.raise c w).out = s.out := rfl
@[simp] theorem State.raise_stream (c : Cause) (w : Word) : (s.raise c w).stream = s.stream := rfl

/-! ## `State.placeWords`: words of the host on the stream (R236) -/

@[simp] theorem State.placeWords_poly (ws : List Word) : (s.placeWords ws).poly = s.poly := rfl
@[simp] theorem State.placeWords_seed (ws : List Word) : (s.placeWords ws).seed = s.seed := rfl
@[simp] theorem State.placeWords_table (ws : List Word) : (s.placeWords ws).table = s.table := rfl
@[simp] theorem State.placeWords_state (ws : List Word) : (s.placeWords ws).state = s.state := rfl
@[simp] theorem State.placeWords_constructed (ws : List Word) : (s.placeWords ws).constructed = s.constructed := rfl
@[simp] theorem State.placeWords_mode (ws : List Word) : (s.placeWords ws).mode = s.mode := rfl
@[simp] theorem State.placeWords_cause (ws : List Word) : (s.placeWords ws).cause = s.cause := rfl
@[simp] theorem State.placeWords_errWord (ws : List Word) : (s.placeWords ws).errWord = s.errWord := rfl
@[simp] theorem State.placeWords_errCp (ws : List Word) : (s.placeWords ws).errCp = s.errCp := rfl
@[simp] theorem State.placeWords_cp (ws : List Word) : (s.placeWords ws).cp = s.cp := rfl
@[simp] theorem State.placeWords_out (ws : List Word) : (s.placeWords ws).out = s.out := rfl

end Sys2Proof.Machine
end

