-- ==== Sys2Proof/Laws/Ops.lean ====
section
/-! SUPPORT. One spec lemma per shared operation: what each can answer, for the proofs to cite in place of unfolding. -/

namespace Sys2Proof.Machine

/-! ## Acceptance -/

theorem whenAccepting_accepts {s : State} (h : s.mode ≠ .faulted) (k : Host.Outcome State Fault Refusal) :
    whenAccepting s k = k := by
  unfold whenAccepting
  split <;> simp_all

theorem whenAccepting_faulted {s : State} (h : s.mode = .faulted) (k : Host.Outcome State Fault Refusal) :
    whenAccepting s k = .fault .noStepFaulted := by
  simp [whenAccepting, h]

theorem whenReady_ready {s : State} (h : s.mode = .ready) (w : Word) (k : Host.Outcome State Fault Refusal) :
    whenReady w s k = k := by
  simp [whenReady, h]

theorem whenReady_unconfigured {s : State} (h : s.mode = .unconfigured) (w : Word)
    (k : Host.Outcome State Fault Refusal) : whenReady w s k = .next (s.raise .notConfigured w) := by
  simp [whenReady, h]

theorem whenReady_faulted {s : State} (h : s.mode = .faulted) (w : Word) (k : Host.Outcome State Fault Refusal) :
    whenReady w s k = .fault .noStepFaulted := by
  simp [whenReady, h]

/-- What `whenReady` can answer as a next state: NOT_CONFIGURED taken, or the continuation's next state in READY. -/
theorem whenReady_next {w : Word} {s s' : State} {k : Host.Outcome State Fault Refusal}
    (h : whenReady w s k = .next s') :
    (s.mode = .unconfigured ∧ s' = s.raise .notConfigured w) ∨ (s.mode = .ready ∧ k = .next s') := by
  unfold whenReady at h
  split at h
  · cases h
  · rename_i hm
    cases h
    exact .inl ⟨hm, rfl⟩
  · rename_i hm
    exact .inr ⟨hm, h⟩

/-- What a construction command can answer as a next state. -/
theorem constructCommand_next {op : Opcode} {p sd : Word} {s s' : State}
    (h : constructCommand op p sd s = .next s') :
    s.mode ≠ .faulted ∧ s' = (s.construct p sd).advance op.length := by
  unfold constructCommand whenAccepting at h
  split at h
  · cases h
  · rename_i hm
    cases h
    simp [hm]
  · rename_i hm
    cases h
    simp [hm]

/-! ## The unwritten elements -/

theorem State.engineWritten_ready {s : State} (h : s.mode = .ready) : s.engineWritten = true := by
  simp [State.engineWritten, h]

theorem State.engineWritten_unconfigured {s : State} (h : s.mode = .unconfigured) : s.engineWritten = false := by
  simp [State.engineWritten, h]

theorem State.engineWritten_faulted {s : State} (h : s.mode = .faulted) : s.engineWritten = s.constructed := by
  simp [State.engineWritten, h]

/-! ## The table -/

/-- An entry of the generated table is the generator's entry (R100). -/
@[simp] theorem tableEntry_genTable (p : Word) (i : Byte) : tableEntry (genTable p) i = genEntry p i := by
  simp [tableEntry, genTable]

@[simp] theorem be4_length (v : Word) : (be4 v).length = 4 := rfl

/-! ## The command stream -/

/-- Words placed at `cp` are the next words the block takes. -/
theorem pending_placeWords (ws : List Word) (s : State) :
    (s.placeWords ws).pending = ws ++ s.stream.drop (s.cp + ws.length) := by
  simp only [State.pending, State.placeWords]
  have hlen : ((s.stream ++ List.replicate (s.cp - s.stream.length) 0#32).take s.cp).length = s.cp := by
    simp only [List.length_take, List.length_append, List.length_replicate]
    omega
  rw [List.append_assoc]
  exact List.drop_left' hlen

/-- The words after the first `n` pending ones are the pending words once `cp` has advanced by `n`. -/
theorem pending_advance (n : Nat) (s : State) : (s.advance n).pending = s.pending.drop n := by
  simp [State.pending, List.drop_drop]

end Sys2Proof.Machine
end

