-- ==== Sys2Proof/Laws/PerInstr.lean ====
section
/-! SUPPORT. Statements about every command as syntax, one lemma per constructor (LAWS.json, "per_instruction"). -/

namespace Sys2Proof.Laws.EncodedShape

/-- The encoding of a command has the length of its operation code (R75) and its command word has the fixed bits
of its row: `(w & mask) = match` (R75). -/
def Statement (i : Instr) : Prop :=
  (encode i).length = i.opcode.length ∧ commandWord i &&& i.opcode.mask = i.opcode.pattern

theorem new : Statement .new := ⟨rfl, rfl⟩

theorem newp (p : Word) : Statement (.newp p) :=
  ⟨rfl, show 0x02#8 ++ 0#16 ++ 0#8 &&& 0xFFFFFFFF#32 = 0x02000000#32 by decide⟩

theorem newps (p sd : Word) : Statement (.newps p sd) :=
  ⟨rfl, show 0x03#8 ++ 0#16 ++ 0#8 &&& 0xFFFFFFFF#32 = 0x03000000#32 by decide⟩

theorem upd (b : Byte) : Statement (.upd b) := ⟨rfl, by revert b; decide +kernel⟩

theorem fin : Statement .fin := ⟨rfl, rfl⟩

theorem rst : Statement .rst := ⟨rfl, rfl⟩

theorem tabrd (i : Byte) : Statement (.tabrd i) := ⟨rfl, by revert i; decide +kernel⟩

end Sys2Proof.Laws.EncodedShape
end

