-- ==== Sys2Proof/Laws/Step.lean ====
section
/-! SUPPORT. What one command and one step can do, said once: the inversion lemmas every proof over steps starts from. -/

namespace Sys2Proof.Machine

/-! ## The fields of the next state, per command -/

theorem execNew_next {s s' : State} (h : execNew s = .next s') :
    s.mode ≠ .faulted ∧ s' = (s.construct Config.polyDefault Config.seedDefault).advance 1 :=
  constructCommand_next h

theorem execNewp_next {p : Word} {s s' : State} (h : execNewp p s = .next s') :
    s.mode ≠ .faulted ∧ s' = (s.construct p Config.seedDefault).advance 2 :=
  constructCommand_next h

theorem execNewps_next {p sd : Word} {s s' : State} (h : execNewps p sd s = .next s') :
    s.mode ≠ .faulted ∧ s' = (s.construct p sd).advance 3 :=
  constructCommand_next h

theorem execUpd_next {b : Byte} {s s' : State} (h : execUpd b s = .next s') :
    (s.mode = .unconfigured ∧ s' = s.raise .notConfigured (commandWord (.upd b))) ∨
    (s.mode = .ready ∧ s' = (s.setState (updateByte s.table s.state b)).advance 1) := by
  rcases whenReady_next h with h | ⟨hm, hk⟩
  · exact .inl h
  · cases hk
    exact .inr ⟨hm, rfl⟩

theorem execFin_next {s s' : State} (h : execFin s = .next s') :
    (s.mode = .unconfigured ∧ s' = s.raise .notConfigured (commandWord .fin)) ∨
    (s.mode = .ready ∧ s' = (s.emit (be4 (onesComplement s.state))).advance 1) := by
  rcases whenReady_next h with h | ⟨hm, hk⟩
  · exact .inl h
  · cases hk
    exact .inr ⟨hm, rfl⟩

theorem execRst_next {s s' : State} (h : execRst s = .next s') :
    (s.mode = .unconfigured ∧ s' = s.raise .notConfigured (commandWord .rst)) ∨
    (s.mode = .ready ∧ s' = (s.setState s.seed).advance 1) := by
  rcases whenReady_next h with h | ⟨hm, hk⟩
  · exact .inl h
  · cases hk
    exact .inr ⟨hm, rfl⟩

theorem execTabrd_next {i : Byte} {s s' : State} (h : execTabrd i s = .next s') :
    (s.mode = .unconfigured ∧ s' = s.raise .notConfigured (commandWord (.tabrd i))) ∨
    (s.mode = .ready ∧ s' = (s.emit (be4 (tableEntry s.table i))).advance 1) := by
  rcases whenReady_next h with h | ⟨hm, hk⟩
  · exact .inl h
  · cases hk
    exact .inr ⟨hm, rfl⟩

/-- Everything a command that answers a next state can have done (R36): raised NOT_CONFIGURED, built the engine,
written STATE, or emitted four bytes. -/
theorem exec_cases {i : Instr} {s s' : State} (h : exec i s = .next s') :
    s.mode ≠ .faulted ∧
    ((s.mode = .unconfigured ∧ i.opcode.length = 1 ∧ s' = s.raise .notConfigured (commandWord i)) ∨
     (∃ p sd, s' = (s.construct p sd).advance i.opcode.length) ∨
     (s.mode = .ready ∧ ∃ v, s' = (s.setState v).advance i.opcode.length) ∨
     (s.mode = .ready ∧ ∃ bs, bs.length = 4 ∧ s' = (s.emit bs).advance i.opcode.length)) := by
  cases i with
  | new => exact ⟨(execNew_next h).1, .inr (.inl ⟨_, _, (execNew_next h).2⟩)⟩
  | newp p => exact ⟨(execNewp_next h).1, .inr (.inl ⟨_, _, (execNewp_next h).2⟩)⟩
  | newps p sd => exact ⟨(execNewps_next h).1, .inr (.inl ⟨_, _, (execNewps_next h).2⟩)⟩
  | upd b =>
    rcases execUpd_next h with ⟨hm, rfl⟩ | ⟨hm, rfl⟩
    · exact ⟨by simp [hm], .inl ⟨hm, rfl, rfl⟩⟩
    · exact ⟨by simp [hm], .inr (.inr (.inl ⟨hm, _, rfl⟩))⟩
  | fin =>
    rcases execFin_next h with ⟨hm, rfl⟩ | ⟨hm, rfl⟩
    · exact ⟨by simp [hm], .inl ⟨hm, rfl, rfl⟩⟩
    · exact ⟨by simp [hm], .inr (.inr (.inr ⟨hm, _, be4_length _, rfl⟩))⟩
  | rst =>
    rcases execRst_next h with ⟨hm, rfl⟩ | ⟨hm, rfl⟩
    · exact ⟨by simp [hm], .inl ⟨hm, rfl, rfl⟩⟩
    · exact ⟨by simp [hm], .inr (.inr (.inl ⟨hm, _, rfl⟩))⟩
  | tabrd k =>
    rcases execTabrd_next h with ⟨hm, rfl⟩ | ⟨hm, rfl⟩
    · exact ⟨by simp [hm], .inl ⟨hm, rfl, rfl⟩⟩
    · exact ⟨by simp [hm], .inr (.inr (.inr ⟨hm, _, be4_length _, rfl⟩))⟩

/-- Everything a step that answers a next state can have done (R76): a rejected word raised its fault, or a whole
command executed. -/
theorem step_cases {s s' : State} (h : step s = .next s') :
    causeReserved s.cause = false ∧ s.mode ≠ .faulted ∧
    ((∃ why w, decode s.pending = .rejected why w ∧ s' = s.raise (rejectionCause why) w) ∨
     (∃ i rest, decode s.pending = .command i rest ∧ exec i s = .next s')) := by
  unfold step at h
  split at h
  · cases h
  · rename_i hc
    refine ⟨by simpa using hc, ?_⟩
    split at h
    · cases h
    all_goals
      rename_i hm
      refine ⟨by simp [hm], ?_⟩
      split at h
      · cases h
      · rename_i hd
        cases h
        exact .inl ⟨_, _, hd, rfl⟩
      · cases h
      · rename_i hd
        exact .inr ⟨_, _, hd, h⟩

end Sys2Proof.Machine
end

