-- ==== Sys2Proof/Tests/Slice0.lean ====
section
/-! SUPPORT. The model's own tests, each about one step, one decoding or one value, with results from the spec (the
vectors V1 to V10 and the examples of the rules), and the witnesses that the statements' hypotheses can be met. -/

namespace Sys2Proof.Tests

open Sys2Proof.Machine

-- One kernel evaluation at a time: side by side they ask for more memory than the check allows.
set_option Elab.async false

/-! ## Small states -/

/-- The state after hardware reset with words on the command port (R230). -/
def freshWith (ws : List Word) : State := { State.reset with stream := ws }

/-- READY with polynomial `p`, seed `sd` and running state `v`, and words on the command port. -/
def engineWith (p sd v : Word) (ws : List Word) : State :=
  { State.reset with
    poly := p, seed := sd, table := genTable p, state := v, constructed := true, mode := .ready, stream := ws }

/-- READY as right after NEW (R101), with words on the command port. -/
def readyWith (ws : List Word) : State := engineWith 0xEDB88320#32 0xFFFFFFFF#32 0xFFFFFFFF#32 ws

/-- FAULTED as after the one word of P4, with NOT_CONFIGURED recorded. -/
def faultedState : State :=
  { State.reset with
    mode := .faulted, cause := 3#4, errWord := 0x10000031#32, errCp := 0, cp := 1,
    stream := [0x10000031#32, 0x01000000#32] }

/-- The storage of the unwritten elements filled with other values than the model's (assumption log 1). -/
def withOtherContents (s : State) : State :=
  { s with
    poly := 0xDEADBEEF#32, seed := 1#32, table := genTable 7#32, state := 0x12345678#32, errWord := 0xFFFFFFFF#32,
    errCp := 9 }

/-- The next state of an outcome. -/
def after : Host.Outcome State Fault Refusal → Option State
  | .next s => some s
  | .fault _ => none
  | .refused _ => none

/-- The stop of an outcome. -/
def stopOf : Host.Outcome State Fault Refusal → Option Fault
  | .next _ => none
  | .fault r => some r
  | .refused _ => none

theorem accepting_fresh (ws : List Word) : Accepting (freshWith ws) := ⟨by simp [freshWith, State.reset], by show (0#4).toNat < 4; decide⟩

theorem accepting_ready (ws : List Word) : Accepting (readyWith ws) :=
  ⟨by simp [readyWith, engineWith], by show (0#4).toNat < 4; decide⟩

theorem readyWith_is_ready (p sd v : Word) (ws : List Word) : ReadyWith p sd v (engineWith p sd v ws) :=
  ⟨rfl, rfl, rfl, rfl, rfl⟩

theorem readyWith_inv (ws : List Word) : Inv (readyWith ws) where
  cause_legal := by show (0#4).toNat < 4; decide
  cause_zero_iff := by simp [readyWith, engineWith, State.reset]
  unconfigured_unbuilt := by intro h; cases h
  ready_constructed := fun _ => rfl
  table_generated := fun _ => rfl
  fault_record := by intro h; cases h
  cp_le := Nat.zero_le _
  out_len := rfl

theorem faultedState_inv : Inv faultedState where
  cause_legal := by show (3#4).toNat < 4; decide
  cause_zero_iff := by simp [faultedState]
  unconfigured_unbuilt := by intro h; cases h
  ready_constructed := by intro h; cases h
  table_generated := by intro h; cases h
  fault_record := fun _ => ⟨rfl, rfl⟩
  cp_le := by decide
  out_len := rfl

/-! ## Well-formedness: each check refuses an ill-formed line (R82) -/

theorem test_newp_range : (AsmLine.newp 0x100000000).wellFormed = false := by decide
theorem test_newps_poly_range : (AsmLine.newps 0x100000000 0).wellFormed = false := by decide
theorem test_newps_seed_range : (AsmLine.newps 0 0x100000000).wellFormed = false := by decide
theorem test_upd_range : (AsmLine.upd 256).wellFormed = false := by decide
theorem test_tabrd_range : (AsmLine.tabrd 256).wellFormed = false := by decide
theorem test_word_range : (AsmLine.word 0x100000000).wellFormed = false := by decide
theorem test_upds_range : (AsmLine.upds [0, 256]).wellFormed = false := by decide
theorem test_hash_range : (AsmLine.hash [256, 0]).wellFormed = false := by decide
theorem test_limits_fit : (AsmLine.newps 0xFFFFFFFF 0xFFFFFFFF).wellFormed = true ∧ (AsmLine.upd 255).wellFormed = true := by
  decide

/-! ## Decoding, the words written out field by field: OP, RSV, IMM8 (R71, R75) -/

theorem test_decode_new : decode [0b00000001#8 ++ 0b0000000000000000#16 ++ 0b00000000#8] = .command .new [] := by decide
theorem test_decode_newp :
    decode [0b00000010#8 ++ 0b0000000000000000#16 ++ 0b00000000#8, 0x82F63B78#32] = .command (.newp 0x82F63B78#32) [] := by
  decide
theorem test_decode_newps :
    decode [0b00000011#8 ++ 0b0000000000000000#16 ++ 0b00000000#8, 0x82F63B78#32, 0x00000000#32, 0x20000000#32] =
      .command (.newps 0x82F63B78#32 0x00000000#32) [0x20000000#32] := by
  decide
theorem test_decode_upd :
    decode [0b00010000#8 ++ 0b0000000000000000#16 ++ 0b00110001#8] = .command (.upd 0x31#8) [] := by decide
theorem test_decode_fin : decode [0b00100000#8 ++ 0b0000000000000000#16 ++ 0b00000000#8] = .command .fin [] := by decide
theorem test_decode_rst : decode [0b00110000#8 ++ 0b0000000000000000#16 ++ 0b00000000#8] = .command .rst [] := by decide
theorem test_decode_tabrd :
    decode [0b01000000#8 ++ 0b0000000000000000#16 ++ 0b11111111#8] = .command (.tabrd 0xFF#8) [] := by decide

/-- V10: an immediate byte where none is allowed, and a reserved field of TABRD. -/
theorem test_decode_reserved :
    decode [0x01000001#32] = .rejected .reservedFieldNonzero 0x01000001#32 ∧
    decode [0x400001FF#32] = .rejected .reservedFieldNonzero 0x400001FF#32 := by decide

/-- V10: undefined operation codes. -/
theorem test_decode_undefined :
    decode [0x05000000#32] = .rejected .undefinedOpcode 0x05000000#32 ∧
    decode [0xFF000000#32] = .rejected .undefinedOpcode 0xFF000000#32 := by decide

/-- The table's words for the longest command: its second word counts on from bit 32. -/
theorem test_decode_table_word :
    decodeTableWord 96 0x12345678_82F63B78_03000000 = some (.newps 0x82F63B78#32 0x12345678#32) ∧
    decodeTableWord 32 0x40000080 = some (.tabrd 0x80#8) ∧ decodeTableWord 32 0x05000000 = none := by decide

/-- `withFetchWord` makes the next step run the word: NEW from reset (V10), STATUS 1. -/
theorem test_fetch_word_new :
    (after (step (State.reset.withFetchWord 32 0x01000000))).map statusPort = some 0x00000001#32 := by decide +kernel

/-! ## The commands (V1 to V9) -/

/-- R101's example: from reset, `cp` is 1 and STATE is the seed. -/
theorem test_new : (after (exec .new (freshWith []))).map (fun s => (s.cp, s.state)) = some (1, 0xFFFFFFFF#32) := by
  decide +kernel

/-- R102's example: NEWP keeps its polynomial and the default seed. -/
theorem test_newp :
    (after (exec (.newp 0x82F63B78#32) (freshWith []))).map (fun s => (s.poly, s.seed, s.cp)) =
      some (0x82F63B78#32, 0xFFFFFFFF#32, 2) := by
  decide +kernel

/-- The polynomial comes first, then the seed (R74). -/
theorem test_newps :
    (after (exec (.newps 0xEDB88320#32 0x12345678#32) (freshWith []))).map (fun s => (s.poly, s.state, s.cp)) =
      some (0xEDB88320#32, 0x12345678#32, 3) := by
  decide +kernel

/-- R120's example and the first row of V2. -/
theorem test_upd_first_byte :
    (after (exec (.upd 0x31#8) (readyWith []))).map (·.state) = some (0x7C231048#32) := by decide +kernel

/-- V5: the byte 0 from STATE 12345678. -/
theorem test_upd_zero_byte :
    (after (exec (.upd 0x00#8) (engineWith 0xEDB88320#32 0#32 0x12345678#32 []))).map (·.state) =
      some (0x5ECCCD58#32) := by
  decide +kernel

/-- R140's example: the digest of the check value, byte0 first, and STATE as computed. -/
theorem test_fin :
    (after (exec .fin (engineWith 0xEDB88320#32 0xFFFFFFFF#32 0x340BC6D9#32 []))).map (fun s => (s.out, s.state)) =
      some ([0xCB#8, 0xF4#8, 0x39#8, 0x26#8], 0x340BC6D9#32) := by
  decide +kernel

/-- V7: RST with a seed of its own. -/
theorem test_rst :
    (after (exec .rst (engineWith 0xEDB88320#32 0x12345678#32 0xCA6598D0#32 []))).map (fun s => (s.state, s.out)) =
      some (0x12345678#32, []) := by
  decide +kernel

/-- V8: `tabrd 0x01` under the default polynomial. -/
theorem test_tabrd_default :
    (after (exec (.tabrd 0x01#8) (readyWith []))).map (·.out) = some [0x77#8, 0x07#8, 0x30#8, 0x96#8] := by decide +kernel

/-- V8: `tabrd 0x01` under 82F63B78. -/
theorem test_tabrd_other :
    (after (exec (.tabrd 0x01#8) (engineWith 0x82F63B78#32 0#32 0#32 []))).map (·.out) =
      some [0xF2#8, 0x6B#8, 0x83#8, 0x03#8] := by
  decide +kernel

/-- V1: entries from four rows of the default table. -/
theorem test_default_table :
    genEntry 0xEDB88320#32 0xCE#8 = 0x7CDCEFB7#32 ∧ genEntry 0xEDB88320#32 0x7A#8 = 0xB0D09822#32 ∧
    genEntry 0xEDB88320#32 0x40#8 = 0x76DC4190#32 ∧ genEntry 0xEDB88320#32 0xA7#8 = 0x48B2364B#32 := by
  decide +kernel

/-- V1: the XOR of all 256 entries is 0. -/
theorem test_default_table_xor : (genTable 0xEDB88320#32).toList.foldl (· ^^^ ·) 0#32 = 0x00000000#32 := by
  decide +kernel

/-- V1: the sum of all 256 entries is FFFFFF80. -/
theorem test_default_table_sum : (genTable 0xEDB88320#32).toList.foldl (· + ·) 0#32 = 0xFFFFFF80#32 := by
  decide +kernel

/-- V3: the last column for 82F63B78 and for the non-reflected 04C11DB7, used as given (D27). -/
theorem test_digests_other_polynomials :
    crc 0x82F63B78#32 0xFFFFFFFF#32 [0x31#8, 0x32#8, 0x33#8, 0x34#8, 0x35#8, 0x36#8, 0x37#8, 0x38#8, 0x39#8] =
      0xE3069283#32 ∧
    crc 0x04C11DB7#32 0xFFFFFFFF#32 [0x31#8, 0x32#8, 0x33#8, 0x34#8, 0x35#8, 0x36#8, 0x37#8, 0x38#8, 0x39#8] =
      0xFC4F2BE9#32 := by
  decide +kernel

/-- R124: the order of the bytes matters. -/
theorem test_byte_order :
    updStar (genTable 0xEDB88320#32) 0xFFFFFFFF#32 [0x31#8, 0x32#8] = 0xB0ACBB32#32 ∧
    updStar (genTable 0xEDB88320#32) 0xFFFFFFFF#32 [0x32#8, 0x31#8] = 0x0288B94B#32 := by
  decide +kernel

/-! ## Faults and waiting (V10, P4 to P8) -/

/-- V10, first faulted row and P4: NOT_CONFIGURED, with the record of R202. -/
theorem test_not_configured :
    (after (step (freshWith [0x10000031#32, 0x01000000#32]))).map (fun s => (statusPort s, s.errWord, s.errCp, s.cp)) =
      some (0x00000032#32, 0x10000031#32, 0, 1) := by
  decide +kernel

/-- V10: RESERVED_FIELD_NONZERO beats NOT_CONFIGURED. -/
theorem test_reserved_beats_not_configured :
    (after (step (freshWith [0x10000100#32]))).map statusPort = some 0x00000022#32 := by decide +kernel

/-- P5: a reserved bit in the middle of a computation keeps STATE. -/
theorem test_fault_keeps_state :
    (after (step (engineWith 0xEDB88320#32 0xFFFFFFFF#32 0x7C231048#32 [0x10000100#32, 0x20000000#32]))).map
      (fun s => (statusPort s, s.state, s.out)) = some (0x00000022#32, 0x7C231048#32, []) := by
  decide +kernel

/-- V10: the all-zero word is undefined. -/
theorem test_zero_word_faults :
    (after (step (readyWith [0x00000000#32]))).map statusPort = some 0x00000012#32 := by decide +kernel

/-- V10, last row: nothing is accepted in FAULTED. -/
theorem test_faulted_has_no_step : stopOf (step faultedState) = some .noStepFaulted := by decide +kernel

/-- P8: a NEWP cut short waits. -/
theorem test_newp_waits : stopOf (step (readyWith [0x02000000#32])) = some .noStepWaiting := by decide +kernel

/-- R76: nothing to take. -/
theorem test_idle : stopOf (step State.reset) = some .noStepIdle := by decide +kernel

/-! ## The assembler (R82 to R84, R86) -/

theorem test_text_upd_char : assembleText "upd '1'".toList = some [0x10000031#32] := by decide +kernel
theorem test_text_newps :
    assembleText "newps 0x82F63B78, 0".toList = some [0x03000000#32, 0x82F63B78#32, 0x00000000#32] := by decide +kernel
theorem test_text_tabrd : assembleText "tabrd 0xFF".toList = some [0x400000FF#32] := by decide +kernel
theorem test_text_word : assembleText ".word 0x10000100".toList = some [0x10000100#32] := by decide +kernel
theorem test_text_refusals :
    assembleText "upd 256".toList = none ∧ assembleText "NEW".toList = none ∧ assembleText "newp".toList = none := by
  decide +kernel
theorem test_text_upds :
    assembleText ("upds ".toList ++ [quoteChar, '1', '2', quoteChar]) = some [0x10000031#32, 0x10000032#32] ∧
    assembleText ("upds ".toList ++ [quoteChar, quoteChar]) = some [] := by
  decide +kernel
theorem test_text_hash :
    assembleText "hash 0x61, 'b'".toList = some [0x30000000#32, 0x10000061#32, 0x10000062#32, 0x20000000#32] := by
  decide +kernel
theorem test_text_program :
    assembleProgram ["new".toList, "fin".toList, "fin".toList] = some [0x01000000#32, 0x20000000#32, 0x20000000#32] := by
  decide +kernel

/-! ## Witnesses: states and operands that meet the statements' hypotheses -/

/-- Words at the ends of each range of R77, each taken by an accepting state. -/
theorem witness_UndefinedOpcodeRaisesCauseOne :
    ([0x00000000#32, 0x00FFFFFF#32, 0x04000000#32, 0x0F000000#32, 0x11000000#32, 0x1F000000#32, 0x21000000#32,
        0x2F000000#32, 0x31000000#32, 0x3F000000#32, 0x41000000#32, 0xFFFFFFFF#32].all fun w => decide
      ((freshWith [w]).stream[(freshWith [w]).cp]? = some w ∧
      ((w >>> 24).toNat = 0x00 ∨ (0x04 ≤ (w >>> 24).toNat ∧ (w >>> 24).toNat ≤ 0x0F) ∨
        (0x11 ≤ (w >>> 24).toNat ∧ (w >>> 24).toNat ≤ 0x1F) ∨ (0x21 ≤ (w >>> 24).toNat ∧ (w >>> 24).toNat ≤ 0x2F) ∨
        (0x31 ≤ (w >>> 24).toNat ∧ (w >>> 24).toNat ≤ 0x3F) ∨
        (0x41 ≤ (w >>> 24).toNat ∧ (w >>> 24).toNat ≤ 0xFF)))) = true ∧
    ∀ w, Accepting (freshWith [w]) :=
  ⟨by decide +kernel, fun w => accepting_fresh [w]⟩

/-- Words with the lowest and the highest reserved bit set, for each operation code of R78; the clauses of the
commands' own statements take the same words. -/
theorem witness_ReservedFieldRaisesCauseTwo :
    ([0x10000100#32, 0x10800000#32, 0x400001FF#32, 0x40800000#32].all fun w => decide
      ((freshWith [w]).stream[(freshWith [w]).cp]? = some w ∧
      (w >>> 24 = 0x10#32 ∨ w >>> 24 = 0x40#32) ∧ (w >>> 8) &&& 0x0000FFFF#32 ≠ 0#32)) = true ∧
    ([0x01000001#32, 0x01800000#32, 0x02000001#32, 0x02800000#32, 0x03000001#32, 0x03800000#32, 0x20000001#32,
        0x20800000#32, 0x30000001#32, 0x30800000#32].all fun w => decide
      ((freshWith [w]).stream[(freshWith [w]).cp]? = some w ∧
      (w >>> 24 = 0x01#32 ∨ w >>> 24 = 0x02#32 ∨ w >>> 24 = 0x03#32 ∨ w >>> 24 = 0x20#32 ∨ w >>> 24 = 0x30#32) ∧
        w &&& 0x00FFFFFF#32 ≠ 0#32)) = true ∧
    ∀ w, Accepting (freshWith [w]) :=
  ⟨by decide +kernel, by decide +kernel, fun w => accepting_fresh [w]⟩

/-- A NEWP with no immediate and a NEWPS with none and with one. -/
theorem witness_IncompleteCommandWaits :
    (freshWith [0x02000000#32]).pending = [0x02000000#32] ∧ (readyWith [0x03000000#32]).pending = [0x03000000#32] ∧
    (readyWith [0x03000000#32, 0xFFFFFFFF#32]).pending = [0x03000000#32, 0xFFFFFFFF#32] ∧
    Accepting (freshWith [0x02000000#32]) ∧ Accepting (readyWith [0x03000000#32]) ∧
    Accepting (readyWith [0x03000000#32, 0xFFFFFFFF#32]) :=
  ⟨rfl, rfl, rfl, accepting_fresh _, accepting_ready _, accepting_ready _⟩

theorem witness_DecodedWordsAreTheEncoding :
    decode [0x100000FF#32, 0x05000000#32] = .command (.upd 0xFF#8) [0x05000000#32] ∧
    decode [0x02000000#32, 0x01000000#32] = .command (.newp 0x01000000#32) [] := by decide

theorem witness_MatchAndMaskDecideTheRow :
    0x400000FF#32 &&& Opcode.tabrd.mask = Opcode.tabrd.pattern ∧ 0x01000000#32 &&& Opcode.new.mask = Opcode.new.pattern := by
  decide

/-- A state whose word decodes to a command that then completes. -/
theorem witness_StepExecutesTheDecodedCommand :
    Accepting (readyWith [0x100000FF#32]) ∧
    decode ((readyWith [0x100000FF#32]).stream.drop (readyWith [0x100000FF#32]).cp) = .command (.upd 0xFF#8) [] ∧
    (after (exec (.upd 0xFF#8) (readyWith [0x100000FF#32]))).map (·.mode) = some .ready :=
  ⟨accepting_ready _, by decide +kernel, by decide +kernel⟩

/-- One word for each of the four cases of R203: undefined, reserved, not configured, none. -/
theorem witness_CauseIsTheFirstInPriority :
    ([0x05000000#32, 0x10000100#32, 0x10000000#32, 0x01000000#32].all fun w => decide
      ((freshWith [w]).stream[(freshWith [w]).cp]? = some w ∧ (after (step (freshWith [w]))).isSome = true)) = true := by
  decide +kernel

/-- The three faults are entered by a step. -/
theorem witness_FaultEntryIsPrecise :
    ([0x00000000#32, 0x01000001#32, 0x20000000#32].all fun w => decide
      ((after (step (freshWith [w]))).map (·.mode) = some .faulted)) = true := by
  decide +kernel

theorem witness_FaultedAcceptsNothing : faultedState.mode = .faulted ∧ faultedState.cause.toNat < 4 := by decide

/-- The lowest and the highest reserved cause. -/
theorem witness_ReservedCauseIsRefused :
    4 ≤ ({ State.reset with cause := 4#4 } : State).cause.toNat ∧
    4 ≤ ({ State.reset with cause := 15#4 } : State).cause.toNat := by decide

/-- Both modes that accept a construction, each with a next state. -/
theorem witness_construction_accepted :
    (freshWith []).mode = .unconfigured ∧ (readyWith []).mode = .ready ∧
    (after (exec .new (freshWith []))).isSome = true ∧ (after (exec (.newp 0#32) (readyWith []))).isSome = true ∧
    (after (exec (.newps 0xFFFFFFFF#32 0#32) (readyWith []))).isSome = true :=
  ⟨rfl, rfl, by decide +kernel, by decide +kernel, by decide +kernel⟩

/-- Two different states that one construction command takes, and a command that is none. -/
theorem witness_ConstructionForgetsTheOldEngine :
    isConstruction (.newp 0#32) = true ∧ (after (exec (.newp 0#32) (freshWith []))).isSome = true ∧
    (after (exec (.newp 0#32) (engineWith 1#32 2#32 3#32 []))).isSome = true ∧
    isConstruction (.upd 0#8) = false ∧ (after (exec (.upd 0#8) (readyWith []))).isSome = true :=
  ⟨rfl, by decide +kernel, by decide +kernel, rfl, by decide +kernel⟩

/-- A READY state with every element that UPD, FIN, RST and TABRD read, and an UNCONFIGURED one, for the clauses of
UpdFoldsOneByte, FinEmitsTheInvertedState, RstReloadsTheSeed, TabrdEmitsTheEntry and StreamedUpdatesFoldFromTheLeft. -/
theorem witness_ready_elements :
    (readyWith []).mode = .ready ∧ (readyWith []).state = 0xFFFFFFFF#32 ∧
    (readyWith []).seed = 0xFFFFFFFF#32 ∧ (readyWith []).table = genTable 0xEDB88320#32 ∧
    (freshWith []).mode = .unconfigured :=
  ⟨rfl, rfl, rfl, rfl, rfl⟩

/-- The READY engine of the statements over `ReadyWith`, and a mixed sequence of UPD, FIN and TABRD, for
ChunkingInvariance, RstEqualsReconstruction, HashIsResetUpdateFinalize and FinDoesNotEndTheComputation. -/
theorem witness_ChunkingInvariance :
    [Instr.upd 0x31#8, .fin, .tabrd 0x80#8, .upd 0x32#8].all feedsOrReads = true ∧
    ReadyWith 0xEDB88320#32 0xFFFFFFFF#32 0xFFFFFFFF#32 (readyWith []) :=
  ⟨rfl, readyWith_is_ready _ _ _ _⟩

theorem witness_ZeroPolynomialIgnoresInput : 4 ≤ [0x01#8, 0x00#8, 0x00#8, 0x00#8].length := by decide

theorem witness_FinReadsOnlyTheState : (after (exec .fin (readyWith []))).isSome = true := by decide +kernel

/-- Streams that hold each of the three constructions, one UPD and FIN, and a hash of one byte. -/
theorem witness_RunEmitsTheDigest :
    constructionOperands .new = some (0xEDB88320#32, 0xFFFFFFFF#32) ∧
    constructionOperands (.newp 5#32) = some (5#32, 0xFFFFFFFF#32) ∧
    constructionOperands (.newps 5#32 6#32) = some (5#32, 6#32) ∧
    (freshWith [0x01000000#32, 0x10000031#32, 0x20000000#32]).pending =
      encodeAll (.new :: (expandUpds [0x31#8] ++ [.fin])) ++ [] ∧
    (freshWith [0x02000000#32, 5#32, 0x10000031#32, 0x20000000#32]).pending =
      encodeAll (.newp 5#32 :: (expandUpds [0x31#8] ++ [.fin])) ++ [] ∧
    (freshWith [0x03000000#32, 5#32, 6#32, 0x10000031#32, 0x20000000#32]).pending =
      encodeAll (.newps 5#32 6#32 :: (expandUpds [0x31#8] ++ [.fin])) ++ [] ∧
    (∀ ws : List Word, Accepting (freshWith ws)) ∧
    (readyWith [0x30000000#32, 0x10000031#32, 0x20000000#32]).pending = encodeAll (expandHash [0x31#8]) ++ [] ∧
    Accepting (readyWith [0x30000000#32, 0x10000031#32, 0x20000000#32]) ∧
    ReadyWith 0xEDB88320#32 0xFFFFFFFF#32 0xFFFFFFFF#32 (readyWith [0x30000000#32, 0x10000031#32, 0x20000000#32]) :=
  ⟨by decide, by decide, by decide, by decide +kernel, by decide +kernel, by decide +kernel, accepting_fresh,
    by decide +kernel, accepting_ready _, readyWith_is_ready _ _ _ _⟩

/-- Two engines that differ in seed and state, and two readouts of the same indices with UPDs in different places. -/
theorem witness_TableReadoutDependsOnThePolynomialOnly :
    ReadyWith 7#32 1#32 2#32 (engineWith 7#32 1#32 2#32 []) ∧ ReadyWith 7#32 3#32 4#32 (engineWith 7#32 3#32 4#32 []) ∧
    [Instr.tabrd 0#8, .tabrd 255#8].all updOrTabrd = true ∧
    [Instr.tabrd 0#8, .upd 9#8, .tabrd 255#8].all updOrTabrd = true ∧
    readIndices [.tabrd 0#8, .tabrd 255#8] = readIndices [.tabrd 0#8, .upd 9#8, .tabrd 255#8] :=
  ⟨readyWith_is_ready _ _ _ _, readyWith_is_ready _ _ _ _, rfl, rfl, rfl⟩

/-- States on both sides of the ERR_WORD port's rule, and states that meet the invariant. -/
theorem witness_ErrWordPortReadsTheFaultingWord :
    faultedState.mode = .faulted ∧ (readyWith []).mode ≠ .faulted ∧ Inv faultedState ∧ Inv (readyWith []) :=
  ⟨rfl, by decide, faultedState_inv, readyWith_inv []⟩

/-- Steps that answer a next state: one that completes, one that emits and one that faults, from states that meet the
invariant, for CommandPointerNeverJumps, ResponseStreamOnlyGrows, StepKeepsTheInvariant, HostSendKeepsTheInvariant,
RunEndsAreTheStatesWithoutStep and EveryRunEnds. -/
theorem witness_steps :
    (after (step (readyWith [0x10000000#32]))).map (·.mode) = some .ready ∧
    (after (step (readyWith [0x40000080#32]))).map (·.out) = some [0xED#8, 0xB8#8, 0x83#8, 0x20#8] ∧
    (after (step (readyWith [0x01000001#32]))).map (·.mode) = some .faulted ∧
    Inv (readyWith [0x10000000#32]) ∧ Inv (readyWith [0x40000080#32]) ∧ Inv (readyWith [0x01000001#32]) :=
  ⟨by decide +kernel, by decide +kernel, by decide +kernel, readyWith_inv _, readyWith_inv _, readyWith_inv _⟩

/-- Next states for each clause of the frame: a command that is no construction and does not fault (each of RST, FIN and
TABRD), one that emits, one that does not, and one that faults. -/
theorem witness_CommandsWriteOnlyTheirElements :
    (after (exec .rst (readyWith []))).map (·.mode) = some .ready ∧
    (after (exec .fin (readyWith []))).map (·.mode) = some .ready ∧
    (after (exec (.tabrd 0#8) (readyWith []))).map (·.mode) = some .ready ∧
    (after (exec (.upd 0#8) (freshWith []))).map (·.mode) = some .faulted := by
  decide +kernel

/-- A command other than UPD that runs twice. -/
theorem witness_CommandsOtherThanUpdAreIdempotent :
    (∀ b, Instr.rst ≠ .upd b) ∧
    ((after (exec .rst (readyWith []))).bind fun s => after (exec .rst s)).isSome = true :=
  ⟨nofun, by decide +kernel⟩

/-- Each command with each element it reads: an UNCONFIGURED state in which the element is unwritten, a FAULTED one, and
a READY one in which the command executes. -/
theorem witness_NoCommandReadsAnUnwrittenElement :
    ([(Instr.upd 0#8, Element.table), (.upd 255#8, .state), (.fin, .state), (.rst, .seed), (.tabrd 255#8, .table)].all
      fun x => readsElement x.1 x.2 && !(freshWith []).written x.2 && !faultedState.written x.2 &&
        ((after (exec x.1 (readyWith []))).map (·.mode) == some .ready) && !isConstruction x.1) = true ∧
    (freshWith []).mode = .unconfigured ∧ faultedState.mode = .faulted :=
  ⟨by decide +kernel, rfl, rfl⟩

theorem fresh_inv_of_contents (ws : List Word) : Inv (withOtherContents (freshWith ws)) where
  cause_legal := by show (0#4).toNat < 4; decide
  cause_zero_iff := by simp [withOtherContents, freshWith, State.reset]
  unconfigured_unbuilt := fun _ => rfl
  ready_constructed := by intro h; cases h
  table_generated := by intro h; cases h
  fault_record := by intro h; cases h
  cp_le := Nat.zero_le _
  out_len := rfl

theorem fresh_inv (ws : List Word) : Inv (freshWith ws) where
  cause_legal := by show (0#4).toNat < 4; decide
  cause_zero_iff := by simp [freshWith, State.reset]
  unconfigured_unbuilt := fun _ => rfl
  ready_constructed := by intro h; cases h
  table_generated := by intro h; cases h
  fault_record := by intro h; cases h
  cp_le := Nat.zero_le _
  out_len := rfl

/-- Two states after hardware reset whose storage holds different values, with a run of each kind before them: one that
goes on (a construction) and one that stops (no word). -/
theorem witness_UnwrittenValuesAreNeverSeen :
    AgreeOnWritten (freshWith [0x01000000#32]) (withOtherContents (freshWith [0x01000000#32])) ∧
    Inv (freshWith [0x01000000#32]) ∧ Inv (withOtherContents (freshWith [0x01000000#32])) ∧
    freshWith [0x01000000#32] ≠ withOtherContents (freshWith [0x01000000#32]) ∧
    (after (Host.Core.run Sys2Proof.core 1 (freshWith [0x01000000#32]))).isSome = true ∧
    stopOf (Host.Core.run Sys2Proof.core 2 (freshWith [0x01000000#32])) = some .noStepIdle :=
  ⟨⟨rfl, rfl, rfl, rfl, rfl, rfl, nofun, nofun, nofun, nofun, nofun, nofun⟩, fresh_inv _, fresh_inv_of_contents _,
    fun h => absurd (congrArg State.seed h) (by decide), by decide +kernel, by decide +kernel⟩

/-- READY states, built and not: the statement asks for the mode alone. -/
theorem witness_EveryCommandCompletesInReady :
    (readyWith []).mode = .ready ∧ ({ State.reset with mode := .ready } : State).mode = .ready := ⟨rfl, rfl⟩

theorem witness_BootNeedsOneConstruction : isConstruction .fin = false ∧ isConstruction (.newps 0#32 0#32) = true := by decide

/-- A stream of two commands with a word after them. -/
theorem witness_StreamRunsItsCommandsInOrder :
    (freshWith [0x01000000#32, 0x10000031#32, 0x20000000#32]).cause.toNat < 4 ∧
    (freshWith [0x01000000#32, 0x10000031#32, 0x20000000#32]).pending =
      encodeAll [.new, .upd 0x31#8] ++ [0x20000000#32] := by
  decide +kernel

/-- Bytes at both ends of their range. -/
theorem witness_PseudoInstructionsExpand : ∀ b ∈ [0, 255], b ≤ 255 := by decide

end Sys2Proof.Tests
end

/-! The state of the block (10_state.md): what the two read-only ports show, which elements are unwritten, what
one command and one step do to `cp`, to the stream and to OUT, and the six statements of that section. -/

namespace Sys2Proof

/-- A command has one to three words (R70). -/
theorem Opcode.length_bounds (op : Opcode) : 1 ≤ op.length ∧ op.length ≤ 3 := by
  cases op <;> decide

namespace Machine

/-! ## The STATUS port (R32) -/

/-- STATUS bit by bit: CFG, FAULT, two zeros, CAUSE, and zeros above it (R32). -/
theorem statusPort_getLsbD (s : State) (k : Nat) :
    (statusPort s).getLsbD k =
      if k = 0 then statusCfg s else if k = 1 then statusFault s else if k < 4 then false
      else s.cause.getLsbD (k - 4) := by
  unfold statusPort
  rw [BitVec.getLsbD_append, BitVec.getLsbD_append, BitVec.getLsbD_append, BitVec.getLsbD_append]
  rcases k with _ | _ | _ | _ | k
  · simp
  · simp
  · simp
  · simp
  · by_cases hk : k < 4
    · simp [hk]
    · simp [hk, BitVec.getLsbD_of_ge s.cause k (by omega)]

theorem statusCfg_iff (s : State) : statusCfg s = true ↔ s.mode = .ready := by
  simp [statusCfg]

theorem statusFault_iff (s : State) : statusFault s = true ↔ s.mode = .faulted := by
  simp [statusFault]

/-- Bit 0 of STATUS is CFG (R32). -/
theorem statusPort_bit0 (s : State) : (statusPort s).getLsbD 0 = true ↔ s.mode = .ready := by
  rw [statusPort_getLsbD, if_pos rfl, statusCfg_iff]

/-- Bit 1 of STATUS is FAULT (R32). -/
theorem statusPort_bit1 (s : State) : (statusPort s).getLsbD 1 = true ↔ s.mode = .faulted := by
  rw [statusPort_getLsbD, if_neg Nat.one_ne_zero, if_pos rfl, statusFault_iff]

/-- Bits 3:2 of STATUS are hardwired 0 (R32). -/
theorem statusPort_bits3_2 (s : State) : (statusPort s).extractLsb' 2 2 = 0#2 := by
  apply BitVec.eq_of_getLsbD_eq
  intro k hk
  simp [statusPort_getLsbD, hk, show 2 + k ≠ 1 by omega, show 2 + k < 4 by omega]

/-- Bits 7:4 of STATUS are CAUSE (R32). -/
theorem statusPort_bits7_4 (s : State) : (statusPort s).extractLsb' 4 4 = s.cause := by
  apply BitVec.eq_of_getLsbD_eq
  intro k hk
  simp [statusPort_getLsbD, hk, show 4 + k ≠ 1 by omega]

/-- Bits 31:8 of STATUS are hardwired 0 (R32). -/
theorem statusPort_bits31_8 (s : State) : (statusPort s).extractLsb' 8 24 = 0#24 := by
  apply BitVec.eq_of_getLsbD_eq
  intro k hk
  have hcause : s.cause.getLsbD (8 + k - 4) = false := BitVec.getLsbD_of_ge _ _ (by omega)
  simp [statusPort_getLsbD, hcause, show 8 + k ≠ 1 by omega, show ¬ 8 + k < 4 by omega]

/-- STATUS before a construction and without a cause is 0. -/
theorem statusPort_unconfigured {s : State} (hm : s.mode = .unconfigured) (hc : s.cause = 0#4) :
    statusPort s = 0x00000000#32 := by
  rw [statusPort, statusCfg, statusFault, hm, hc]
  rfl

/-- STATUS of a READY engine without a cause: CFG alone is set. -/
theorem statusPort_ready {s : State} (hm : s.mode = .ready) (hc : s.cause = 0#4) : statusPort s = 0x00000001#32 := by
  rw [statusPort, statusCfg, statusFault, hm, hc]
  rfl

/-! ## The ERR_WORD port (R33) -/

theorem errWordPort_faulted {s : State} (hm : s.mode = .faulted) : errWordPort s = s.errWord := by
  simp [errWordPort, hm]

theorem errWordPort_not_faulted {s : State} (hm : s.mode ≠ .faulted) : errWordPort s = 0x00000000#32 := by
  unfold errWordPort
  split
  · contradiction
  · rfl
  · rfl

/-! ## Written and unwritten elements (R28, R31, R37) -/

/-- In UNCONFIGURED no element is written (R28, R37). -/
theorem State.written_unconfigured {s : State} (hm : s.mode = .unconfigured) (e : Element) : s.written e = false := by
  cases e <;> simp [State.written, State.engineWritten_unconfigured hm, State.faultRecorded, hm]

/-- In READY the fault record is unwritten and every other element is written (R28, R31). -/
theorem State.written_ready {s : State} (hm : s.mode = .ready) (e : Element) :
    s.written e = true ↔ e ≠ .errWord ∧ e ≠ .errCp := by
  cases e <;> simp [State.written, State.engineWritten_ready hm, State.faultRecorded, hm]

/-- A command reads elements of the engine alone, never the fault record (R36). -/
theorem readsElement_engine {i : Instr} {e : Element} (h : readsElement i e = true) : e ≠ .errWord ∧ e ≠ .errCp := by
  constructor <;> rintro rfl <;> cases i <;> cases h

/-- A construction reads no element (R36). -/
theorem not_construction_of_readsElement {i : Instr} {e : Element} (h : readsElement i e = true) :
    isConstruction i = false := by
  cases i with
  | new | newp | newps => cases h
  | upd | fin | rst | tabrd => rfl

/-- In READY every element that some command reads is written (R35). -/
theorem written_of_readsElement_of_ready {s : State} {i : Instr} {e : Element} (h : readsElement i e = true)
    (hm : s.mode = .ready) : s.written e = true :=
  (State.written_ready hm e).2 (readsElement_engine h)

/-! ## Which mode a command meets (R75, R201, R204) -/

/-- A construction in a mode that accepts it completes. -/
theorem constructCommand_accepts {s : State} (hm : s.mode ≠ .faulted) (op : Opcode) (p sd : Word) :
    constructCommand op p sd s = .next ((s.construct p sd).advance op.length) :=
  whenAccepting_accepts hm _

theorem exec_new_accepts {s : State} (hm : s.mode ≠ .faulted) :
    exec .new s = .next ((s.construct Config.polyDefault Config.seedDefault).advance 1) :=
  constructCommand_accepts hm .new _ _

/-- Every command but a construction raises NOT_CONFIGURED in UNCONFIGURED (R75, R201). -/
theorem exec_unconfigured {i : Instr} {s : State} (hi : isConstruction i = false) (hm : s.mode = .unconfigured) :
    exec i s = .next (faultState 3#4 (commandWord i) s) := by
  cases i with
  | new | newp | newps => cases hi
  | upd | fin | rst | tabrd => exact whenReady_unconfigured hm _ _

/-- No command is accepted in FAULTED (R204). -/
theorem exec_faulted {s : State} (hm : s.mode = .faulted) (i : Instr) : exec i s = .fault .noStepFaulted := by
  cases i with
  | new | newp | newps => exact whenAccepting_faulted hm _
  | upd | fin | rst | tabrd => exact whenReady_faulted hm _ _

/-- A command, not a construction, that answers a next state without a fault was executed in READY. -/
theorem ready_of_exec_next {i : Instr} {s s' : State} (hi : isConstruction i = false) (h : exec i s = .next s')
    (hm' : s'.mode ≠ .faulted) : s.mode = .ready := by
  cases hm : s.mode with
  | ready => rfl
  | unconfigured =>
    rw [exec_unconfigured hi hm] at h
    cases h
    exact absurd rfl hm'
  | faulted =>
    rw [exec_faulted hm] at h
    cases h

/-! ## What a command and a step do to `cp`, the stream and OUT (R22, R29, R85) -/

/-- No command writes the stream. -/
theorem exec_stream {i : Instr} {s s' : State} (h : exec i s = .next s') : s'.stream = s.stream := by
  obtain ⟨-, ⟨-, -, rfl⟩ | ⟨_, _, rfl⟩ | ⟨-, _, rfl⟩ | ⟨-, _, -, rfl⟩⟩ := exec_cases h <;> rfl

/-- A command that faults moves `cp` by 1, and one that completes by its length (R22, R202). -/
theorem exec_cp {i : Instr} {s s' : State} (h : exec i s = .next s') :
    (s'.mode = .faulted ∧ s'.cp = s.cp + 1) ∨ (s'.mode ≠ .faulted ∧ s'.cp = s.cp + i.opcode.length) := by
  obtain ⟨hm, ⟨-, -, rfl⟩ | ⟨_, _, rfl⟩ | ⟨-, _, rfl⟩ | ⟨-, _, -, rfl⟩⟩ := exec_cases h
  · exact .inl ⟨rfl, rfl⟩
  · exact .inr ⟨by simp, rfl⟩
  · exact .inr ⟨hm, rfl⟩
  · exact .inr ⟨hm, rfl⟩

/-- Only FIN and TABRD write OUT, by an append of four bytes (R29). -/
theorem exec_out {i : Instr} {s s' : State} (h : exec i s = .next s') :
    s'.out = s.out ∨ ((i = .fin ∨ ∃ k, i = .tabrd k) ∧ ∃ bytes, bytes.length = 4 ∧ s'.out = s.out ++ bytes) := by
  cases i with
  | new => exact .inl (by simp [(execNew_next h).2])
  | newp p => exact .inl (by simp [(execNewp_next h).2])
  | newps p sd => exact .inl (by simp [(execNewps_next h).2])
  | upd b => obtain ⟨-, rfl⟩ | ⟨-, rfl⟩ := execUpd_next h <;> exact .inl rfl
  | rst => obtain ⟨-, rfl⟩ | ⟨-, rfl⟩ := execRst_next h <;> exact .inl rfl
  | fin =>
    obtain ⟨-, rfl⟩ | ⟨-, rfl⟩ := execFin_next h
    · exact .inl rfl
    · exact .inr ⟨.inl rfl, _, be4_length _, rfl⟩
  | tabrd k =>
    obtain ⟨-, rfl⟩ | ⟨-, rfl⟩ := execTabrd_next h
    · exact .inl rfl
    · exact .inr ⟨.inr ⟨k, rfl⟩, _, be4_length _, rfl⟩

/-- No step writes the stream (R85). -/
theorem step_stream {s s' : State} (h : step s = .next s') : s'.stream = s.stream := by
  obtain ⟨-, -, ⟨_, _, -, rfl⟩ | ⟨_, _, -, hex⟩⟩ := step_cases h
  · rfl
  · exact exec_stream hex

/-! ## The statements of 10_state.md -/

/-- Settles O36, field by field of the layout of STATUS. -/
theorem statusIsAViewOfModeAndCause : Obligations.StatusIsAViewOfModeAndCause := by
  refine ⟨fun s => ⟨statusPort_bit0 s, statusPort_bit1 s, statusPort_bits3_2 s, statusPort_bits7_4 s,
    statusPort_bits31_8 s, ?_⟩, statusPort_unconfigured rfl rfl⟩
  rw [statusPort_bit0, statusPort_bit1]
  rintro ⟨hready, hfaulted⟩
  cases hready.symm.trans hfaulted

/-- Settles O37; the word at ERR_CP is the invariant's record of the fault. -/
theorem errWordPortReadsTheFaultingWord : Obligations.ErrWordPortReadsTheFaultingWord := by
  refine ⟨fun _ => errWordPort_faulted, fun _ => errWordPort_not_faulted, fun s hinv hm => ?_⟩
  rw [errWordPort_faulted hm]
  exact (hinv.fault_record hm).2

/-- Settles O38, by the two things a step can do: take a fault, or execute a decoded command. -/
theorem commandPointerNeverJumps : Obligations.CommandPointerNeverJumps := by
  refine ⟨rfl, fun s s' h => ⟨step_stream h, ?_⟩⟩
  obtain ⟨-, -, ⟨why, w, -, rfl⟩ | ⟨i, rest, hd, hex⟩⟩ := step_cases h
  · exact .inl ⟨rfl, rfl⟩
  · refine (exec_cp hex).imp_right fun ⟨hm, hcp⟩ => ⟨hm, i, rest, hd, ?_⟩
    rw [encode_length]
    exact ⟨hcp, i.opcode.length_bounds⟩

/-- Settles O39, by the two things a step can do: a fault leaves OUT, and a command appends to it as `exec_out` says. -/
theorem responseStreamOnlyGrows : Obligations.ResponseStreamOnlyGrows := by
  refine ⟨rfl, fun s s' h => ?_⟩
  obtain ⟨-, -, ⟨why, w, -, rfl⟩ | ⟨i, rest, hd, hex⟩⟩ := step_cases h
  · exact .inl rfl
  · exact (exec_out hex).imp_right fun ⟨hi, bytes, hlen, hout⟩ => ⟨i, rest, bytes, hd, hi, hlen, hout⟩

/-- Settles O45: the mode decides both which elements are written and whether a command that reads them executes. -/
theorem noCommandReadsAnUnwrittenElement : Obligations.NoCommandReadsAnUnwrittenElement := by
  refine ⟨fun s i e hr hw => ⟨fun hm => ?_, exec_unconfigured (not_construction_of_readsElement hr),
    fun hm => exec_faulted hm i⟩, fun s s' i e hr h hm' => ?_, fun s hm => ?_, fun s i => exec_unconfigured⟩
  · simp [written_of_readsElement_of_ready hr hm] at hw
  · exact written_of_readsElement_of_ready hr (ready_of_exec_next (not_construction_of_readsElement hr) h hm')
  · exact ⟨State.written_unconfigured hm _, State.written_unconfigured hm _, State.written_unconfigured hm _,
      State.written_unconfigured hm _⟩

/-- Settles O35: hardware reset is UNCONFIGURED, and NEW from there is a construction with both defaults. -/
theorem resetAndConstructionValues : Obligations.ResetAndConstructionValues := by
  have hreset (S : List Word) (s : State) : (hardwareReset S s).mode = .unconfigured := rfl
  refine ⟨fun S s => ?_, rfl, fun S s => ⟨_, exec_new_accepts nofun, ?_⟩⟩
  · exact ⟨State.written_unconfigured (hreset S s), hreset S s, rfl, errWordPort_not_faulted nofun,
      statusPort_unconfigured (hreset S s) rfl, rfl, rfl, rfl⟩
  · exact ⟨rfl, rfl, rfl, rfl, State.written_ready rfl, rfl, rfl, rfl, rfl, errWordPort_not_faulted nofun,
      statusPort_ready rfl rfl, rfl, rfl⟩

end Machine

end Sys2Proof

/-! The command encoding (30_encoding.md): the fields of a command word as the shifts and masks of the spec write
them, what the decoder answers on each kind of word, what a step does then, and the statements on undefined operation
codes (R77), reserved fields (R78) and incomplete commands (R81). -/

namespace Sys2Proof

/-! ## The fields of a command word by shift and mask (R71) -/

theorem shiftRight24_eq_opField (w : Word) : w >>> 24 = (opField w).setWidth 32 := by
  apply BitVec.eq_of_toNat_eq
  simp only [opField, BitVec.toNat_ushiftRight, BitVec.toNat_setWidth, BitVec.extractLsb'_toNat]
  omega

theorem shiftRight8_and_eq_rsvField (w : Word) : (w >>> 8) &&& 0x0000FFFF#32 = (rsvField w).setWidth 32 := by
  apply BitVec.eq_of_toNat_eq
  simp only [rsvField, BitVec.toNat_and, BitVec.toNat_ushiftRight, BitVec.toNat_ofNat, Nat.reducePow, Nat.reduceMod,
    Nat.and_two_pow_sub_one_eq_mod _ 16, BitVec.toNat_setWidth, BitVec.extractLsb'_toNat]
  omega

theorem and_eq_low24 (w : Word) : w &&& 0x00FFFFFF#32 = (w.extractLsb' 0 24).setWidth 32 := by
  apply BitVec.eq_of_toNat_eq
  simp only [BitVec.toNat_and, BitVec.toNat_ofNat, Nat.reducePow, Nat.reduceMod,
    Nat.and_two_pow_sub_one_eq_mod _ 24, BitVec.toNat_setWidth, BitVec.extractLsb'_toNat]
  omega

/-! ## The operation code (R75, R77) -/

/-- A byte is undefined exactly where it is no operation code's value of `OP` (R77). -/
theorem Opcode.ofByte_eq_none_iff {b : Byte} : Opcode.ofByte b = none ↔ ∀ op : Opcode, op.code ≠ b := by
  rw [Option.eq_none_iff_forall_ne_some]
  refine forall_congr' fun op => not_congr ⟨Opcode.code_of_ofByte, ?_⟩
  rintro rfl
  exact Opcode.ofByte_code op

/-- `OP` read by shifting the word is the operation code whose value it is (R71, R75). -/
theorem ofByte_opField_of_shiftRight {w : Word} {op : Opcode} (h : w >>> 24 = op.code.setWidth 32) :
    Opcode.ofByte (opField w) = some op := by
  rw [shiftRight24_eq_opField] at h
  have hcode : opField w = op.code := by simpa using congrArg (BitVec.setWidth 8) h
  rw [hcode, Opcode.ofByte_code]

/-- No operation code has its value of `OP` in the ranges of R77. -/
theorem ofByte_opField_of_undefined {w : Word}
    (h : (w >>> 24).toNat = 0x00 ∨ (0x04 ≤ (w >>> 24).toNat ∧ (w >>> 24).toNat ≤ 0x0F) ∨
      (0x11 ≤ (w >>> 24).toNat ∧ (w >>> 24).toNat ≤ 0x1F) ∨ (0x21 ≤ (w >>> 24).toNat ∧ (w >>> 24).toNat ≤ 0x2F) ∨
      (0x31 ≤ (w >>> 24).toNat ∧ (w >>> 24).toNat ≤ 0x3F) ∨ (0x41 ≤ (w >>> 24).toNat ∧ (w >>> 24).toNat ≤ 0xFF)) :
    Opcode.ofByte (opField w) = none := by
  rw [Opcode.ofByte_eq_none_iff]
  intro op hop
  have hval : (w >>> 24).toNat = (op.code.setWidth 32).toNat := by rw [shiftRight24_eq_opField, hop]
  rw [hval] at h
  revert h
  cases op <;> decide

/-! ## The fields that must be 0 (R78) -/

/-- Of UPD and TABRD the reserved bits are 23:8. -/
theorem reservedNonzero_of_rsv {op : Opcode} {w : Word} (hop : op.takesByte = true)
    (h : (w >>> 8) &&& 0x0000FFFF#32 ≠ 0#32) : reservedNonzero op w = true := by
  have hrsv : rsvField w ≠ 0#16 := fun h0 => h (by rw [shiftRight8_and_eq_rsvField, h0]; rfl)
  simpa [reservedNonzero, hop] using hrsv

/-- Of every other command the reserved bits are 23:0. -/
theorem reservedNonzero_of_low24 {op : Opcode} {w : Word} (hop : op.takesByte = false)
    (h : w &&& 0x00FFFFFF#32 ≠ 0#32) : reservedNonzero op w = true := by
  have hlow : w.extractLsb' 0 24 ≠ 0#24 := fun h0 => h (by rw [and_eq_low24, h0]; rfl)
  simpa [reservedNonzero, hop] using hlow

/-! ## What the decoder answers (R76) -/

theorem decode_undefined {w : Word} (h : Opcode.ofByte (opField w) = none) (rest : List Word) :
    decode (w :: rest) = .rejected .undefinedOpcode w := by
  simp [decode, h]

theorem decode_reserved {w : Word} {op : Opcode} (hop : Opcode.ofByte (opField w) = some op)
    (hrsv : reservedNonzero op w = true) (rest : List Word) :
    decode (w :: rest) = .rejected .reservedFieldNonzero w := by
  simp [decode, hop, hrsv]

theorem decode_accepted {w : Word} {op : Opcode} (hop : Opcode.ofByte (opField w) = some op)
    (hrsv : reservedNonzero op w = false) (rest : List Word) :
    decode (w :: rest) = takeOperands op w rest := by
  simp [decode, hop, hrsv]

/-- A NEWP with no word after it is incomplete (R81). -/
theorem decode_newp_incomplete : decode [0x02000000#32] = .incomplete :=
  decode_accepted (op := .newp) (by decide) (by decide) []

/-- A NEWPS with fewer than two words after it is incomplete (R81). -/
theorem decode_newps_incomplete {rest : List Word} (h : rest.length < 2) :
    decode (0x03000000#32 :: rest) = .incomplete := by
  rw [decode_accepted (op := .newps) (by decide) (by decide)]
  match rest with
  | [] | [_] => rfl
  | _ :: _ :: _ => simp at h

namespace Machine

/-! ## The words at `cp` (R76) -/

/-- The first pending word is `S[cp]`. -/
theorem pending_of_getElem? {s : State} {w : Word} (h : s.stream[s.cp]? = some w) :
    s.pending = w :: s.stream.drop (s.cp + 1) := by
  obtain ⟨hlt, rfl⟩ := List.getElem?_eq_some_iff.1 h
  exact List.drop_eq_getElem_cons hlt

theorem getElem?_of_pending {s : State} {w : Word} {rest : List Word} (h : s.pending = w :: rest) :
    s.stream[s.cp]? = some w := by
  rw [← List.head?_drop]
  exact congrArg List.head? h

/-- The pending words reach to the end of the stream. -/
theorem stream_length_of_pending {s : State} {w : Word} {rest : List Word} (h : s.pending = w :: rest) :
    s.stream.length = s.cp + (rest.length + 1) := by
  have hlen : s.stream.length - s.cp = rest.length + 1 := by
    simpa [State.pending] using congrArg List.length h
  omega

/-! ## The step of an accepting state (R76) -/

theorem Accepting.causeReserved {s : State} (h : Accepting s) : causeReserved s.cause = false :=
  decide_eq_false (Nat.not_le.2 h.2)

/-- The step of an accepting state is decided by what the decoder answers. -/
theorem step_of_accepting {s : State} (h : Accepting s) :
    step s = match decode s.pending with
      | .noWord => .fault .noStepIdle
      | .rejected why w => .next (faultState (rejectionCause why).code w s)
      | .incomplete => .fault .noStepWaiting
      | .command i _ => exec i s := by
  cases hm : s.mode with
  | faulted => exact absurd hm h.1
  | unconfigured | ready =>
    simp only [step, h.causeReserved, hm]
    rfl

/-- A rejected word raises its fault. -/
theorem step_rejected {s : State} (h : Accepting s) {why : Rejection} {w : Word}
    (hd : decode s.pending = .rejected why w) : step s = .next (faultState (rejectionCause why).code w s) := by
  rw [step_of_accepting h, hd]

/-- An incomplete command waits. -/
theorem step_incomplete {s : State} (h : Accepting s) (hd : decode s.pending = .incomplete) :
    step s = .fault .noStepWaiting := by
  rw [step_of_accepting h, hd]

theorem step_undefined {s : State} {w : Word} (h : Accepting s) (hw : s.stream[s.cp]? = some w)
    (hop : Opcode.ofByte (opField w) = none) : step s = .next (faultState 1#4 w s) :=
  step_rejected h (why := .undefinedOpcode) (pending_of_getElem? hw ▸ decode_undefined hop _)

theorem step_reserved {s : State} {w : Word} {op : Opcode} (h : Accepting s) (hw : s.stream[s.cp]? = some w)
    (hop : Opcode.ofByte (opField w) = some op) (hrsv : reservedNonzero op w = true) :
    step s = .next (faultState 2#4 w s) :=
  step_rejected h (why := .reservedFieldNonzero) (pending_of_getElem? hw ▸ decode_reserved hop hrsv _)

/-! ## The waiting end (R81, R238) -/

theorem waiting_of_pending_newp {s : State} (hm : s.mode ≠ .faulted) (h : s.pending = [0x02000000#32]) :
    RunEnd.condition .waiting s := by
  have hlen : s.stream.length = s.cp + 1 := stream_length_of_pending h
  exact ⟨hm, by omega, .inl ⟨getElem?_of_pending h, by omega⟩⟩

theorem waiting_of_pending_newps {s : State} (hm : s.mode ≠ .faulted) {rest : List Word} (hrest : rest.length < 2)
    (h : s.pending = 0x03000000#32 :: rest) : RunEnd.condition .waiting s := by
  have hlen := stream_length_of_pending h
  exact ⟨hm, by omega, .inr ⟨getElem?_of_pending h, by omega⟩⟩

/-- A new stream after hardware reset is pending whole: no word sent before is left (R230). -/
theorem pending_hardwareReset (S : List Word) (s : State) : (hardwareReset S s).pending = S := rfl

/-! ## The statements of 30_encoding.md -/

/-- Settles O5: no operation code has its value in the ranges, so the decoder rejects the word. -/
theorem undefinedOpcodeRaisesCauseOne : Obligations.UndefinedOpcodeRaisesCauseOne := by
  refine ⟨fun s w h hw hrange => step_undefined h hw (ofByte_opField_of_undefined hrange),
    fun s h hw => step_undefined h hw (ofByte_opField_of_undefined (.inl rfl)), ?_⟩
  decide +kernel

/-- Settles O6: each operation code with the bits that R78 reserves in its word. -/
theorem reservedFieldRaisesCauseTwo : Obligations.ReservedFieldRaisesCauseTwo := by
  intro s w h hw hword
  obtain ⟨op, hop, hrsv⟩ : ∃ op : Opcode, w >>> 24 = op.code.setWidth 32 ∧ reservedNonzero op w = true := by
    obtain ⟨hop | hop, hbits⟩ | ⟨hop | hop | hop | hop | hop, hbits⟩ := hword
    · exact ⟨.upd, hop, reservedNonzero_of_rsv rfl hbits⟩
    · exact ⟨.tabrd, hop, reservedNonzero_of_rsv rfl hbits⟩
    · exact ⟨.new, hop, reservedNonzero_of_low24 rfl hbits⟩
    · exact ⟨.newp, hop, reservedNonzero_of_low24 rfl hbits⟩
    · exact ⟨.newps, hop, reservedNonzero_of_low24 rfl hbits⟩
    · exact ⟨.fin, hop, reservedNonzero_of_low24 rfl hbits⟩
    · exact ⟨.rst, hop, reservedNonzero_of_low24 rfl hbits⟩
  exact step_reserved h hw (ofByte_opField_of_shiftRight hop) hrsv

/-- Settles O7: the decoder finds the command incomplete, and the stream ends before its last immediate word. -/
theorem incompleteCommandWaits : Obligations.IncompleteCommandWaits := by
  intro s h hp
  have hwait : decode s.pending = .incomplete ∧ RunEnd.condition .waiting s := by
    obtain hp | hp | ⟨x, hp⟩ := hp
    · exact ⟨hp ▸ decode_newp_incomplete, waiting_of_pending_newp h.1 hp⟩
    · exact ⟨hp ▸ decode_newps_incomplete (by simp), waiting_of_pending_newps h.1 (by simp) hp⟩
    · exact ⟨hp ▸ decode_newps_incomplete (by simp), waiting_of_pending_newps h.1 (by simp) hp⟩
  exact ⟨step_incomplete h hwait.1, hwait.2, rfl, fun S => pending_hardwareReset S s⟩

end Machine

end Sys2Proof

/-! Construction (40_construction.md): the table generator and its algebra (R100, R104), what a construction command
does and leaves, and the statements on NEW, NEWP and NEWPS (R101 to R103) and on what survives a construction (R108). -/

namespace Sys2Proof.Machine

/-! ## The table generator (R100) -/

/-- Bit 0 of a word as the source tests it. -/
theorem and_one_eq_one_iff (k : Word) : k &&& 1#32 = 1#32 ↔ k.getLsbD 0 = true := by
  rw [BitVec.and_one_eq_setWidth_ofBool_getLsbD]
  cases k.getLsbD 0 <;> decide

/-- A step of the generator with the source's test `(k & 1) == 1`. -/
theorem genStep_eq_source (p k : Word) : genStep p k = if k &&& 1#32 = 1#32 then (k >>> 1) ^^^ p else k >>> 1 := by
  simp only [genStep, and_one_eq_one_iff]

theorem genSteps_eq_iterate (p : Word) (n : Nat) (k : Word) : genSteps p n k = (genStep p)^[n] k := by
  induction n generalizing k with
  | zero => rfl
  | succ n ih => exact ih (genStep p k)

/-- The polynomial enters a step of `a ^^^ b` exactly when it enters one of the steps of `a` and `b`, but not both. -/
theorem genStep_xor (p a b : Word) : genStep p (a ^^^ b) = genStep p a ^^^ genStep p b := by
  unfold genStep
  rw [BitVec.getLsbD_xor, BitVec.ushiftRight_xor_distrib]
  cases a.getLsbD 0 <;> cases b.getLsbD 0
  · rfl
  · exact BitVec.xor_assoc _ _ _
  · show a >>> 1 ^^^ b >>> 1 ^^^ p = a >>> 1 ^^^ p ^^^ b >>> 1
    ac_rfl
  · show a >>> 1 ^^^ b >>> 1 = a >>> 1 ^^^ p ^^^ (b >>> 1 ^^^ p)
    calc a >>> 1 ^^^ b >>> 1 = a >>> 1 ^^^ b >>> 1 ^^^ (p ^^^ p) := by rw [BitVec.xor_self, BitVec.xor_zero]
      _ = a >>> 1 ^^^ p ^^^ (b >>> 1 ^^^ p) := by ac_rfl

theorem genSteps_xor (p : Word) (n : Nat) (a b : Word) :
    genSteps p n (a ^^^ b) = genSteps p n a ^^^ genSteps p n b := by
  induction n generalizing a b with
  | zero => rfl
  | succ n ih => simp only [genSteps, genStep_xor, ih]

/-- With polynomial 0 a step only shifts. -/
theorem genSteps_zero_poly (n : Nat) (k : Word) : genSteps 0#32 n k = k >>> n := by
  induction n generalizing k with
  | zero => exact (BitVec.ushiftRight_zero k).symm
  | succ n ih =>
    have hstep : genStep 0#32 k = k >>> 1 := by simp [genStep]
    rw [genSteps, hstep, ih, ← BitVec.shiftRight_add, Nat.add_comm]

/-! ## The entries of the table (R104) -/

/-- An index of the table, widened with zeros. -/
theorem zext32_ofFin (i : Fin 256) : zext32 (BitVec.ofFin i) = BitVec.ofNat 32 i.val := by
  apply BitVec.eq_of_toNat_eq
  simp [zext32]

/-- The generated entry is linear over XOR of indices (R104). -/
theorem genEntry_xor (p : Word) (i j : Byte) : genEntry p (i ^^^ j) = genEntry p i ^^^ genEntry p j := by
  rw [genEntry, zext32, BitVec.setWidth_xor, genSteps_xor]
  rfl

/-- Entry 0 is its own XOR with itself, so it is 0 (R104). -/
theorem genEntry_zero (p : Word) : genEntry p 0x00#8 = 0#32 := by
  have h := genEntry_xor p 0x00#8 0x00#8
  rwa [BitVec.xor_self, BitVec.xor_self] at h

/-- Seven shifts take `0x80` to 1, and the eighth step leaves the polynomial alone (R104). -/
theorem genEntry_0x80 (p : Word) : genEntry p 0x80#8 = p := by
  have hshift : genSteps p 7 0x80#32 = 0x01#32 := by simp [genSteps, genStep]
  calc genEntry p 0x80#8 = (genStep p)^[8] 0x80#32 := genSteps_eq_iterate p 8 _
    _ = genStep p ((genStep p)^[7] 0x80#32) := Function.iterate_succ_apply' (genStep p) 7 _
    _ = genStep p 0x01#32 := by rw [← genSteps_eq_iterate, hshift]
    _ = 0#32 ^^^ p := rfl
    _ = p := BitVec.zero_xor

/-- With polynomial 0 the eight shifts take every index to 0 (R104). -/
theorem genEntry_zero_poly (i : Byte) : genEntry 0#32 i = 0#32 := by
  rw [genEntry, genSteps_zero_poly]
  apply BitVec.eq_of_toNat_eq
  simp only [zext32, Config.tableIterations, BitVec.toNat_ushiftRight, BitVec.toNat_setWidth, BitVec.toNat_ofNat]
  omega

/-! ## What a construction command does (R101 to R103, R108) -/

theorem isConstruction_iff {i : Instr} : isConstruction i = true ↔ ∃ p sd, constructionOperands i = some (p, sd) := by
  cases i <;> simp [isConstruction, constructionOperands]

/-- A construction command is `constructCommand` with its operands, the defaults included. -/
theorem exec_construction {i : Instr} {p sd : Word} (hi : constructionOperands i = some (p, sd)) (s : State) :
    exec i s = constructCommand i.opcode p sd s := by
  cases i with
  | new | newp | newps =>
    cases hi
    rfl
  | upd | fin | rst | tabrd => cases hi

/-- A construction command completes in UNCONFIGURED and in READY (R75). -/
theorem exec_construction_accepts {i : Instr} {p sd : Word} (hi : constructionOperands i = some (p, sd)) {s : State}
    (hm : s.mode = .unconfigured ∨ s.mode = .ready) :
    exec i s = .next ((s.construct p sd).advance i.opcode.length) := by
  rw [exec_construction hi]
  refine constructCommand_accepts (fun hf => ?_) i.opcode p sd
  rcases hm with hm | hm <;> cases hf.symm.trans hm

/-- A construction leaves READY with a fresh engine of its operands, whatever the state before it (R108). -/
theorem readyWith_of_exec_construction {i : Instr} {p sd : Word} (hi : constructionOperands i = some (p, sd))
    {s s' : State} (h : exec i s = .next s') : ReadyWith p sd sd s' := by
  rw [exec_construction hi] at h
  obtain ⟨-, rfl⟩ := constructCommand_next h
  exact ⟨rfl, rfl, rfl, rfl, rfl⟩

/-- STATUS.CFG is 1 after a construction. -/
theorem statusPort_bit0_of_exec_construction {i : Instr} {p sd : Word}
    (hi : constructionOperands i = some (p, sd)) {s s' : State} (h : exec i s = .next s') :
    (statusPort s').getLsbD 0 = true :=
  (statusPort_bit0 s').2 (readyWith_of_exec_construction hi h).1

/-- Only a construction writes POLY and SEED (R36, R108). -/
theorem exec_keeps_poly_seed {i : Instr} (hi : isConstruction i = false) {s s' : State} (h : exec i s = .next s') :
    s'.poly = s.poly ∧ s'.seed = s.seed := by
  cases i with
  | new | newp | newps => cases hi
  | upd b => obtain ⟨-, rfl⟩ | ⟨-, rfl⟩ := execUpd_next h <;> exact ⟨rfl, rfl⟩
  | fin => obtain ⟨-, rfl⟩ | ⟨-, rfl⟩ := execFin_next h <;> exact ⟨rfl, rfl⟩
  | rst => obtain ⟨-, rfl⟩ | ⟨-, rfl⟩ := execRst_next h <;> exact ⟨rfl, rfl⟩
  | tabrd k => obtain ⟨-, rfl⟩ | ⟨-, rfl⟩ := execTabrd_next h <;> exact ⟨rfl, rfl⟩

/-- A command word without a byte operand that has a non-zero bit in 23:0 raises cause 2 (R78). -/
theorem step_low24_nonzero {op : Opcode} (hop : op.takesByte = false) {s : State} {w : Word} (h : Accepting s)
    (hw : s.stream[s.cp]? = some w) (hcode : w >>> 24 = op.code.setWidth 32) (hbits : w &&& 0x00FFFFFF#32 ≠ 0#32) :
    step s = .next (faultState 2#4 w s) :=
  step_reserved h hw (ofByte_opField_of_shiftRight hcode) (reservedNonzero_of_low24 hop hbits)

/-! ## The statements of 40_construction.md -/

/-- Settles O16: a construction's engine depends on its operands alone, and the other commands keep POLY and SEED. -/
theorem constructionForgetsTheOldEngine : Obligations.ConstructionForgetsTheOldEngine := by
  refine ⟨fun i s₁ s₂ s₁' s₂' hi h₁ h₂ => ?_, fun i s s' hi => exec_keeps_poly_seed hi⟩
  obtain ⟨p, sd, hops⟩ := isConstruction_iff.1 hi
  obtain ⟨hm₁, hp₁, hsd₁, ht₁, hv₁⟩ := readyWith_of_exec_construction hops h₁
  obtain ⟨hm₂, hp₂, hsd₂, ht₂, hv₂⟩ := readyWith_of_exec_construction hops h₂
  exact ⟨hp₁.trans hp₂.symm, hsd₁.trans hsd₂.symm, ht₁.trans ht₂.symm, hv₁.trans hv₂.symm, hm₁, hm₂⟩

/-- Settles O17: the generator's step is the source's, and its eight steps are the iterate. -/
theorem tableEntryIsEightShiftXorSteps : Obligations.TableEntryIsEightShiftXorSteps := by
  intro p i
  have hstep : (fun k : Word => if k &&& 1#32 = 1#32 then (k >>> 1) ^^^ p else k >>> 1) = genStep p :=
    funext fun k => (genStep_eq_source p k).symm
  rw [hstep, ← zext32_ofFin, ← genSteps_eq_iterate]
  exact Vector.getElem_ofFn i.isLt

/-- Settles O18; each clause on every polynomial is a property of `genEntry`. -/
theorem generatorProperties : Obligations.GeneratorProperties := by
  unfold Obligations.GeneratorProperties
  simp only [tableEntry_genTable]
  exact ⟨genEntry_zero, genEntry_0x80, genEntry_xor, genEntry_zero_poly, fun _ _ => congrArg genTable,
    by decide, genEntry_0x80 _, by decide⟩

/-- Settles O13: NEW is the construction command whose operands are the two defaults. -/
theorem newConstructsWithTheDefaults : Obligations.NewConstructsWithTheDefaults :=
  ⟨fun _ => exec_construction_accepts (i := .new) rfl,
    fun _ _ => statusPort_bit0_of_exec_construction (i := .new) rfl,
    fun _ _ => step_low24_nonzero (op := .new) rfl⟩

/-- Settles O14; NEWP without `I1` is incomplete for the decoder. -/
theorem newpHonoursItsPolynomial : Obligations.NewpHonoursItsPolynomial :=
  ⟨fun _ p => exec_construction_accepts (i := .newp p) rfl,
    fun _ _ p => statusPort_bit0_of_exec_construction (i := .newp p) rfl,
    fun _ _ => step_low24_nonzero (op := .newp) rfl,
    fun _ h hp => step_incomplete h (hp ▸ decode_newp_incomplete)⟩

/-- Settles O15; NEWPS with fewer than two immediate words is incomplete for the decoder. -/
theorem newpsTakesPolynomialAndSeed : Obligations.NewpsTakesPolynomialAndSeed := by
  refine ⟨fun _ p sd => exec_construction_accepts (i := .newps p sd) rfl,
    fun _ _ p sd => statusPort_bit0_of_exec_construction (i := .newps p sd) rfl,
    fun _ _ => step_low24_nonzero (op := .newps) rfl, fun s h hp => step_incomplete h ?_⟩
  obtain hp | ⟨x, hp⟩ := hp <;> exact hp ▸ decode_newps_incomplete (by simp)

end Sys2Proof.Machine

/-! Update (41_update.md): the table index of a byte (R120), the command UPD, `Upd*` over a sequence of bytes (R121),
and the statements on UPD (R120), on chunking (R122) and on the polynomial 0 (R123). -/

namespace Sys2Proof.Machine

/-! ## The table index (R8, R50, R120) -/

/-- Both parts of the index are below 256, and so is their XOR (R8). -/
theorem updIndexWord_toNat_lt (b : Byte) (v : Word) : (updIndexWord b v).toNat < 256 := by
  have hbyte : (zext32 b).toNat < 2 ^ 8 := by
    rw [zext32, BitVec.toNat_setWidth]
    exact lt_of_le_of_lt (Nat.mod_le _ _) b.isLt
  have hlow : (v &&& 0x000000FF#32).toNat < 2 ^ 8 := by
    rw [BitVec.toNat_and]
    exact Nat.and_lt_two_pow _ (by decide)
  rw [updIndexWord, BitVec.toNat_xor]
  exact Nat.xor_lt_two_pow hbyte hlow

/-- Reading the index as 8 bits loses nothing (R50). -/
theorem updIndex_toNat (b : Byte) (v : Word) : (updIndex b v).toNat = (updIndexWord b v).toNat := by
  rw [updIndex, BitVec.toNat_setWidth]
  exact Nat.mod_eq_of_lt (updIndexWord_toNat_lt b v)

/-- The entry that UPD reads is the one at the 32-bit index of the formula. -/
theorem tableEntry_updIndex (t : Vector Word Config.tableSize) (b : Byte) (v : Word) :
    tableEntry t (updIndex b v) = t[(updIndexWord b v).toNat]'(updIndexWord_toNat_lt b v) := by
  simp only [tableEntry, updIndex_toNat]

/-! ## The command UPD (R120) -/

/-- A command word is the fixed bits of its row with the byte operand in bits 7:0 (R71, R75). -/
theorem commandWord_eq_or (i : Instr) : commandWord i = i.opcode.pattern ||| i.imm8.setWidth 32 := by
  have hrow (op : Opcode) : (op.code ++ 0#16).shiftLeftZeroExtend 8 = op.pattern := by cases op <;> rfl
  rw [commandWord, BitVec.append_def, BitVec.setWidth'_eq, hrow]

theorem exec_upd_ready {s : State} (hm : s.mode = .ready) (b : Byte) :
    exec (.upd b) s = .next ((s.setState (updateByte s.table s.state b)).advance 1) :=
  whenReady_ready hm _ _

/-- A command word with a byte operand that has a non-zero bit in 23:8 raises cause 2 (R78). -/
theorem step_rsv_nonzero {op : Opcode} (hop : op.takesByte = true) {s : State} {w : Word} (h : Accepting s)
    (hw : s.stream[s.cp]? = some w) (hcode : w >>> 24 = op.code.setWidth 32)
    (hbits : (w >>> 8) &&& 0x0000FFFF#32 ≠ 0#32) : step s = .next (faultState 2#4 w s) :=
  step_reserved h hw (ofByte_opField_of_shiftRight hcode) (reservedNonzero_of_rsv hop hbits)

/-! ## `Upd*` (R121 to R123) -/

/-- Feeding `A` and then `B` is feeding `A ++ B` (R122). -/
theorem updStar_append (t : Vector Word Config.tableSize) (v : Word) (A B : List Byte) :
    updStar t v (A ++ B) = updStar t (updStar t v A) B := by
  induction A generalizing v with
  | nil => rfl
  | cons b A ih => exact ih (updateByte t v b)

/-- With polynomial 0 every entry of the table is 0, and a byte only shifts the state (R123). -/
theorem updateByte_zero_poly (v : Word) (b : Byte) : updateByte (genTable 0#32) v b = v >>> 8 := by
  rw [updateByte, tableEntry_genTable, genEntry_zero_poly, BitVec.xor_zero]

theorem updStar_zero_poly (v : Word) (m : List Byte) : updStar (genTable 0#32) v m = v >>> (8 * m.length) := by
  induction m generalizing v with
  | nil => exact (BitVec.ushiftRight_zero v).symm
  | cons b m ih =>
    rw [updStar, updateByte_zero_poly, ih, ← BitVec.shiftRight_add, List.length_cons, Nat.mul_succ, Nat.add_comm]

/-! ## Sequences of UPD, FIN and TABRD (R122) -/

theorem runInstrs_cons_of_next {i : Instr} {s s' : State} (h : exec i s = .next s') (is : List Instr) :
    runInstrs (i :: is) s = runInstrs is s' := by
  rw [runInstrs, h]

theorem fedBytes_cons (i : Instr) (is : List Instr) : fedBytes (i :: is) = fedBytes [i] ++ fedBytes is := by
  cases i <;> rfl

/-- In READY each of UPD, FIN and TABRD completes; UPD folds its byte into STATE, and FIN and TABRD keep the engine. -/
theorem exec_feedsOrReads {i : Instr} (hi : feedsOrReads i = true) {p sd v : Word} {s : State}
    (h : ReadyWith p sd v s) :
    ∃ s', exec i s = .next s' ∧ ReadyWith p sd (updStar (genTable p) v (fedBytes [i])) s' := by
  obtain ⟨hm, hp, hsd, ht, hv⟩ := h
  cases i with
  | new | newp | newps | rst => cases hi
  | upd b =>
    have hfold : updateByte s.table s.state b = updateByte (genTable p) v b := by rw [ht, hv]
    exact ⟨_, exec_upd_ready hm b, hm, hp, hsd, ht, hfold⟩
  | fin | tabrd => exact ⟨_, whenReady_ready hm _ _, hm, hp, hsd, ht, hv⟩

/-- A sequence of UPD, FIN and TABRD, from READY, folds the bytes it feeds into STATE and keeps the rest of the
engine. -/
theorem runInstrs_feedsOrReads {is : List Instr} (his : is.all feedsOrReads = true) {p sd v : Word} {s : State}
    (h : ReadyWith p sd v s) :
    ∃ s', runInstrs is s = .next s' ∧ ReadyWith p sd (updStar (genTable p) v (fedBytes is)) s' := by
  induction is generalizing v s with
  | nil => exact ⟨s, rfl, h⟩
  | cons i is ih =>
    obtain ⟨hi, his⟩ := Bool.and_eq_true_iff.1 his
    obtain ⟨s₁, hexec, hready⟩ := exec_feedsOrReads hi h
    rw [runInstrs_cons_of_next hexec, fedBytes_cons, updStar_append]
    exact ih his hready

/-! ## The statements of 41_update.md -/

/-- Settles O23: `Upd*` of a concatenation, and the induction over the commands, whose step is one such command. -/
theorem chunkingInvariance : Obligations.ChunkingInvariance :=
  ⟨fun t v A B => (updStar_append t v A B).symm, fun _ _ _ _ _ his h => runInstrs_feedsOrReads his h⟩

/-- Settles O24: each byte shifts by 8, and 32 shifts leave nothing of a word. -/
theorem zeroPolynomialIgnoresInput : Obligations.ZeroPolynomialIgnoresInput := by
  refine fun v m => ⟨updStar_zero_poly v m, fun hlen => ?_⟩
  rw [updStar_zero_poly]
  exact BitVec.ushiftRight_eq_zero (by omega)

/-- Settles O19: UPD in READY reads the entry at the formula's index; the two faults are those of every command with a
byte operand. -/
theorem updFoldsOneByte : Obligations.UpdFoldsOneByte := by
  refine ⟨fun s b hm => ⟨updIndexWord_toNat_lt b s.state, ?_⟩, fun s b hm => ?_,
    fun _ _ => step_rsv_nonzero (op := .upd) rfl⟩
  · rw [exec_upd_ready hm, updateByte, tableEntry_updIndex]
    rfl
  · rw [exec_unconfigured rfl hm, commandWord_eq_or]
    rfl

end Sys2Proof.Machine

/-! Finalize, reset and hash (42_finalize_reset.md): the bytes of the digest (R52, R140), the commands FIN and RST, the
UPDs of a message with one FIN after them, a run over the words of a sequence of commands, and the statements on FIN
(R140, R143), on RST (R141), on `hash` (R142) and on the digest of a run (R144). -/

namespace Sys2Proof

/-! ## The decoder reads back what the encoder wrote (R70 to R75) -/

theorem decode_encode_append (i : Instr) (rest : List Word) : decode (encode i ++ rest) = .command i rest := by
  have hop : Opcode.ofByte (opField (commandWord i)) = some i.opcode := by
    rw [opField_commandWord, Opcode.ofByte_code]
  rw [encode, List.cons_append, decode_accepted hop (reservedNonzero_commandWord i)]
  cases i with
  | new | newp | newps | fin | rst => rfl
  | upd b => exact congrArg (fun b => Decoded.command (.upd b) rest) (imm8Field_commandWord (.upd b))
  | tabrd k => exact congrArg (fun k => Decoded.command (.tabrd k) rest) (imm8Field_commandWord (.tabrd k))

theorem encodeAll_cons (i : Instr) (is : List Instr) : encodeAll (i :: is) = encode i ++ encodeAll is :=
  List.flatMap_cons

namespace Machine

/-! ## The digest and its bytes (R8, R52, R144) -/

theorem onesComplement_eq_not (v : Word) : onesComplement v = ~~~v := BitVec.xor_allOnes

/-- The bytes of `BE4` as shifts of the word, cut to 8 bits. -/
theorem be4_eq_shifts (v : Word) :
    be4 v = [(v >>> 24).setWidth 8, (v >>> 16).setWidth 8, (v >>> 8).setWidth 8, v.setWidth 8] :=
  rfl

theorem crc_eq_not (p sd : Word) (m : List Byte) : crc p sd m = ~~~(updStar (genTable p) sd m) :=
  onesComplement_eq_not _

/-- The CRC of a message in two parts goes on from the state that the first part leaves (R143, R144). -/
theorem crc_append (p sd : Word) (A B : List Byte) :
    crc p sd (A ++ B) = crc p (updStar (genTable p) sd A) B := by
  rw [crc, crc, updStar_append]

/-- The check value (R144): nine entries of the table, each computed by the generator. -/
theorem crc_default_check_value :
    crc 0xEDB88320#32 0xFFFFFFFF#32 [0x31#8, 0x32#8, 0x33#8, 0x34#8, 0x35#8, 0x36#8, 0x37#8, 0x38#8, 0x39#8] =
      0xCBF43926#32 := by
  simp only [crc, updStar, updateByte, tableEntry_genTable]
  decide

/-! ## The commands FIN and RST (R140, R141) -/

theorem exec_fin_ready {s : State} (hm : s.mode = .ready) :
    exec .fin s = .next ((s.emit (be4 (onesComplement s.state))).advance 1) :=
  whenReady_ready hm _ _

theorem exec_rst_ready {s : State} (hm : s.mode = .ready) :
    exec .rst s = .next ((s.setState s.seed).advance 1) :=
  whenReady_ready hm _ _

/-- RST leaves the engine as a construction with its polynomial and seed leaves it. -/
theorem ReadyWith.after_rst {p sd v : Word} {s : State} (h : ReadyWith p sd v s) :
    ReadyWith p sd sd ((s.setState s.seed).advance 1) := by
  obtain ⟨hm, hp, hsd, ht, -⟩ := h
  exact ⟨hm, hp, hsd, ht, hsd⟩

/-! ## A message: its UPDs, and one FIN (R121, R140) -/

/-- What the UPDs of `m` and one FIN do to an engine with polynomial `p` and running state `v`. -/
def State.digestMessage (p v : Word) (m : List Byte) (s : State) : State :=
  ((s.setState (updStar (genTable p) v m)).emit (be4 (crc p v m))).advance (m.length + 1)

/-- A digest keeps POLY, SEED and TABLE, and STATE holds `Upd*` of the message (R143). -/
theorem ReadyWith.digestMessage {p sd v : Word} {s : State} (h : ReadyWith p sd v s) (m : List Byte) :
    ReadyWith p sd (updStar (genTable p) v m) (s.digestMessage p v m) := by
  obtain ⟨hm, hp, hsd, ht, -⟩ := h
  exact ⟨hm, hp, hsd, ht, rfl⟩

/-- One UPD and the digest of the rest are the digest of the whole message. -/
theorem State.digestMessage_cons (p v : Word) (b : Byte) (m : List Byte) (s : State) :
    ((s.setState (updateByte (genTable p) v b)).advance 1).digestMessage p (updateByte (genTable p) v b) m =
      s.digestMessage p v (b :: m) := by
  have hlen : s.cp + 1 + (m.length + 1) = s.cp + ((b :: m).length + 1) := by
    rw [List.length_cons]
    omega
  simp only [State.digestMessage, State.advance, State.emit, State.setState, crc, updStar, hlen]

theorem runInstrs_upds_fin {p sd v : Word} {s : State} (h : ReadyWith p sd v s) (m : List Byte) (is : List Instr) :
    runInstrs (expandUpds m ++ .fin :: is) s = runInstrs is (s.digestMessage p v m) := by
  induction m generalizing v s with
  | nil =>
    obtain ⟨hm, -, -, -, rfl⟩ := h
    exact runInstrs_cons_of_next (exec_fin_ready hm) is
  | cons b m ih =>
    obtain ⟨hm, hp, hsd, ht, rfl⟩ := h
    have hupd : exec (.upd b) s = .next ((s.setState (updateByte (genTable p) s.state b)).advance 1) := by
      rw [exec_upd_ready hm, ht]
    have hready : ReadyWith p sd (updateByte (genTable p) s.state b)
        ((s.setState (updateByte (genTable p) s.state b)).advance 1) := ⟨hm, hp, hsd, ht, rfl⟩
    rw [← State.digestMessage_cons, ← ih hready]
    exact runInstrs_cons_of_next hupd _

/-- `hash` reloads the seed and digests its bytes (R84, R142). -/
theorem runInstrs_expandHash {p sd v : Word} {s : State} (h : ReadyWith p sd v s) (m : List Byte) :
    runInstrs (expandHash m) s = .next { s with
      state := updStar (genTable p) sd m, out := s.out ++ be4 (crc p sd m), cp := s.cp + (m.length + 2) } := by
  rw [expandHash, runInstrs_cons_of_next (exec_rst_ready h.1), runInstrs_upds_fin h.after_rst,
    show s.cp + (m.length + 2) = s.cp + 1 + (m.length + 1) by omega]
  rfl

/-- A construction and the digest of one message. -/
theorem runInstrs_construction_upds_fin {c : Instr} {p sd : Word} (hc : constructionOperands c = some (p, sd))
    {s : State} (hm : s.mode ≠ .faulted) (m : List Byte) :
    runInstrs (c :: (expandUpds m ++ [Instr.fin])) s =
      .next (((s.construct p sd).advance c.opcode.length).digestMessage p sd m) := by
  have hexec : exec c s = .next ((s.construct p sd).advance c.opcode.length) := by
    rw [exec_construction hc, constructCommand_accepts hm]
  rw [runInstrs_cons_of_next hexec, runInstrs_upds_fin (readyWith_of_exec_construction hc hexec)]
  rfl

/-! ## A run over the words of a sequence of commands (R58, R76) -/

/-- No command produces a reserved cause (R201). -/
theorem exec_cause_legal {i : Instr} {s s' : State} (h : exec i s = .next s') (hc : s.cause.toNat < 4) :
    s'.cause.toNat < 4 := by
  obtain ⟨-, ⟨-, -, rfl⟩ | ⟨_, _, rfl⟩ | ⟨-, _, rfl⟩ | ⟨-, _, -, rfl⟩⟩ := exec_cases h
  · rw [State.raise_cause]
    decide
  · exact hc
  · exact hc
  · exact hc

/-- A command takes its own words from the pending ones; one that faults is one word long. -/
theorem exec_pending {i : Instr} {s s' : State} (h : exec i s = .next s') :
    s'.pending = s.pending.drop i.opcode.length := by
  rw [← pending_advance]
  obtain ⟨-, ⟨-, hlen, rfl⟩ | ⟨_, _, rfl⟩ | ⟨-, _, rfl⟩ | ⟨-, _, -, rfl⟩⟩ := exec_cases h
  · rw [hlen]
    rfl
  all_goals rfl

/-- A step takes the command whose words are pending, in every mode. -/
theorem step_of_pending_encode {i : Instr} {rest : List Word} {s : State} (hc : s.cause.toNat < 4)
    (hp : s.pending = encode i ++ rest) : step s = exec i s := by
  by_cases hm : s.mode = .faulted
  · have hlegal : causeReserved s.cause = false := decide_eq_false (Nat.not_le.2 hc)
    rw [exec_faulted hm, step, hlegal, hm]
    rfl
  · rw [step_of_accepting ⟨hm, hc⟩, hp, decode_encode_append]

/-- One step a command, a block does what the commands do executed one after another. -/
theorem run_eq_runInstrs {is : List Instr} {rest : List Word} {s : State} (hc : s.cause.toNat < 4)
    (hp : s.pending = encodeAll is ++ rest) : Host.Core.run core is.length s = runInstrs is s := by
  induction is generalizing s with
  | nil => rfl
  | cons i is ih =>
    rw [encodeAll_cons, List.append_assoc] at hp
    have hstep : core.step s = exec i s := step_of_pending_encode hc hp
    simp only [List.length_cons, Host.Core.run, runInstrs, hstep]
    cases hexec : exec i s with
    | next s' =>
      refine ih (exec_cause_legal hexec hc) ?_
      rw [exec_pending hexec, hp, ← encode_length, List.drop_left]
    | fault r => rfl
    | refused r => rfl

/-- The run over the words of one command, the UPDs of a message and FIN. -/
theorem run_message {c : Instr} {m : List Byte} {rest : List Word} {s : State} (hc : s.cause.toNat < 4)
    (hp : s.pending = encodeAll (c :: (expandUpds m ++ [Instr.fin])) ++ rest) :
    Host.Core.run core (m.length + 2) s = runInstrs (c :: (expandUpds m ++ [Instr.fin])) s := by
  have hlen : (c :: (expandUpds m ++ [Instr.fin])).length = m.length + 2 := by simp [expandUpds]
  rw [← hlen]
  exact run_eq_runInstrs hc hp

/-! ## The statements of 42_finalize_reset.md -/

/-- Settles O30: `hash` is RST and the digest of its bytes, and RST is not accepted in UNCONFIGURED. -/
theorem hashIsResetUpdateFinalize : Obligations.HashIsResetUpdateFinalize := by
  refine ⟨fun p sd v s m h => ?_, fun s m hm => ⟨_, rfl, exec_unconfigured (i := .rst) rfl hm⟩⟩
  rw [← crc_eq_not]
  exact runInstrs_expandHash h m

/-- Settles O31: the second digest starts from the state that the first one leaves. -/
theorem finDoesNotEndTheComputation : Obligations.FinDoesNotEndTheComputation := by
  intro p sd s A B h
  rw [runInstrs_upds_fin h, runInstrs_upds_fin (h.digestMessage A), updStar_append, crc_append,
    show s.cp + (A.length + B.length + 2) = s.cp + (A.length + 1) + (B.length + 1) by omega]
  rfl

/-- Settles O32: a run over the words is the commands in order, and these are a fresh engine and one digest. -/
theorem runEmitsTheDigest : Obligations.RunEmitsTheDigest := by
  refine ⟨?_, ?_, crc_default_check_value, fun p sd => crc_eq_not p sd [], fun p sd A B => ?_, ?_⟩
  · rintro c p sd m rest s t hc ⟨hm, hcause⟩ hp rfl
    rw [run_message hcause hp, runInstrs_construction_upds_fin hc hm, encode_length,
      show s.cp + (c.opcode.length + m.length + 1) = s.cp + c.opcode.length + (m.length + 1) by omega]
    rfl
  · rintro p sd v m rest s t ⟨-, hcause⟩ h hp rfl
    exact (run_message hcause hp).trans (runInstrs_expandHash h m)
  · rw [crc_eq_not, updStar_append]
  · rintro p _ sd _ m _ rfl rfl rfl
    rfl

/-- Settles O25: FIN emits `BE4` of the complement; the two faults are those of every command without a byte operand. -/
theorem finEmitsTheInvertedState : Obligations.FinEmitsTheInvertedState := by
  refine ⟨fun s hm => ?_, fun _ => exec_unconfigured (i := .fin) rfl, fun _ _ => step_low24_nonzero (op := .fin) rfl⟩
  rw [exec_fin_ready hm, onesComplement_eq_not, be4_eq_shifts]
  rfl

/-- Settles O28; the two faults are those of every command without a byte operand. -/
theorem rstReloadsTheSeed : Obligations.RstReloadsTheSeed :=
  ⟨fun _ => exec_rst_ready, fun _ => exec_unconfigured (i := .rst) rfl,
    fun _ _ => step_low24_nonzero (op := .rst) rfl⟩

end Machine

end Sys2Proof

/-! Table readout (43_table_read.md): the bytes that a sequence of indices reads out of a table, the command TABRD, a
sequence of UPD and TABRD, and the statements on TABRD (R160) and on the readout of a table (R161). -/

namespace Sys2Proof.Machine

/-! ## The bytes of a readout (R160, R161) -/

/-- What TABRD emits for the indices `ks`, in order, from `GenTable(p)`: a function of the polynomial alone (R161). -/
def tableReadout (p : Word) (ks : List Byte) : List Byte := ks.flatMap fun k => be4 (tableEntry (genTable p) k)

theorem tableReadout_append (p : Word) (ks ls : List Byte) :
    tableReadout p (ks ++ ls) = tableReadout p ks ++ tableReadout p ls :=
  List.flatMap_append

theorem tableReadout_length (p : Word) (ks : List Byte) : (tableReadout p ks).length = 4 * ks.length := by
  simp [tableReadout, Nat.mul_comm]

theorem readIndices_cons (i : Instr) (is : List Instr) : readIndices (i :: is) = readIndices [i] ++ readIndices is := by
  cases i <;> rfl

/-! ## The command TABRD, and sequences of UPD and TABRD -/

theorem exec_tabrd_ready {s : State} (hm : s.mode = .ready) (k : Byte) :
    exec (.tabrd k) s = .next ((s.emit (be4 (tableEntry s.table k))).advance 1) :=
  whenReady_ready hm _ _

/-- In READY both UPD and TABRD complete and keep POLY, SEED and TABLE; UPD emits nothing, and TABRD emits its entry. -/
theorem exec_updOrTabrd {i : Instr} (hi : updOrTabrd i = true) {p sd v : Word} {s : State} (h : ReadyWith p sd v s) :
    ∃ v' s', exec i s = .next s' ∧ ReadyWith p sd v' s' ∧ s'.out = s.out ++ tableReadout p (readIndices [i]) := by
  obtain ⟨hm, hp, hsd, ht, hv⟩ := h
  cases i with
  | new | newp | newps | fin | rst => cases hi
  | upd b => exact ⟨_, _, exec_upd_ready hm b, ⟨hm, hp, hsd, ht, rfl⟩, (List.append_nil s.out).symm⟩
  | tabrd k =>
    refine ⟨v, _, exec_tabrd_ready hm k, ⟨hm, hp, hsd, ht, hv⟩, ?_⟩
    rw [ht]
    rfl

/-- A sequence of UPD and TABRD, from READY, completes and emits the readout of its indices. -/
theorem runInstrs_updOrTabrd {is : List Instr} (his : is.all updOrTabrd = true) {p sd v : Word} {s : State}
    (h : ReadyWith p sd v s) :
    ∃ s', runInstrs is s = .next s' ∧ s'.out = s.out ++ tableReadout p (readIndices is) := by
  induction is generalizing v s with
  | nil => exact ⟨s, rfl, (List.append_nil s.out).symm⟩
  | cons i is ih =>
    obtain ⟨hi, his⟩ := Bool.and_eq_true_iff.1 his
    obtain ⟨_, s₁, hexec, hready, hout₁⟩ := exec_updOrTabrd hi h
    obtain ⟨s', hrun, hout⟩ := ih his hready
    refine ⟨s', (runInstrs_cons_of_next hexec is).trans hrun, ?_⟩
    rw [hout, hout₁, List.append_assoc, ← tableReadout_append, ← readIndices_cons]

/-! ## The statements of 43_table_read.md -/

/-- Settles O34: each engine emits the readout of its indices, which the polynomial and the indices decide. -/
theorem tableReadoutDependsOnThePolynomialOnly : Obligations.TableReadoutDependsOnThePolynomialOnly := by
  intro p _ _ _ _ s₁ s₂ is₁ is₂ h₁ h₂ his₁ his₂ hindices
  obtain ⟨s₁', hrun₁, hout₁⟩ := runInstrs_updOrTabrd his₁ h₁
  obtain ⟨s₂', hrun₂, hout₂⟩ := runInstrs_updOrTabrd his₂ h₂
  rw [← hindices] at hout₂
  exact ⟨s₁', s₂', _, hrun₁, hrun₂, hout₁, hout₂, tableReadout_length p _⟩

/-- Settles O33: TABRD emits `BE4` of the entry; the two faults are those of every command with a byte operand. -/
theorem tabrdEmitsTheEntry : Obligations.TabrdEmitsTheEntry := by
  refine ⟨fun s k hm => ?_, fun s k hm => ?_, fun _ _ => step_rsv_nonzero (op := .tabrd) rfl⟩
  · rw [exec_tabrd_ready hm, be4_eq_shifts]
    rfl
  · rw [exec_unconfigured rfl hm, commandWord_eq_or]
    rfl

end Sys2Proof.Machine

/-! Exceptions (60_exceptions.md): what an answer of the decoder says about the words it read, which commands and steps
enter FAULTED, and the statements on fault entry (R202) and on FAULTED (R204). -/

namespace Sys2Proof

/-! ## What the decoder's answer says about the words (R71, R75, R76) -/

/-- The byte operand that a word with operation code `op` carries: `IMM8` where it is an operand, else 0 (R71). -/
def Opcode.byteOperand (op : Opcode) (w : Word) : Byte := if op.takesByte then imm8Field w else 0#8

/-- Operands are taken for one command of that operation code: its byte operand from the word, its immediates next. -/
theorem takeOperands_command {op : Opcode} {w : Word} {ws rest : List Word} {i : Instr}
    (h : takeOperands op w ws = .command i rest) :
    i.opcode = op ∧ i.imm8 = op.byteOperand w ∧ ws = i.immediates ++ rest := by
  cases op with
  | new | upd | fin | rst | tabrd =>
    cases h
    exact ⟨rfl, rfl, rfl⟩
  | newp =>
    match ws, h with
    | _ :: _, rfl => exact ⟨rfl, rfl, rfl⟩
  | newps =>
    match ws, h with
    | _ :: _ :: _, rfl => exact ⟨rfl, rfl, rfl⟩

/-- Only the checks of the command word reject, not the taking of operands. -/
theorem takeOperands_ne_rejected (op : Opcode) (w : Word) (ws : List Word) (why : Rejection) (w' : Word) :
    takeOperands op w ws ≠ .rejected why w' := by
  cases op with
  | new | upd | fin | rst | tabrd => exact Decoded.noConfusion
  | newp => rcases ws with _ | ⟨_, _⟩ <;> exact Decoded.noConfusion
  | newps => rcases ws with _ | ⟨_, _ | ⟨_, _⟩⟩ <;> exact Decoded.noConfusion

/-- A word that passes the check of its reserved fields is its operation code, zeros and its byte operand (R71, R78). -/
theorem eq_layout_of_accepted {op : Opcode} {w : Word} (hop : Opcode.ofByte (opField w) = some op)
    (hrsv : reservedNonzero op w = false) : w = op.code ++ 0#16 ++ op.byteOperand w := by
  have hlow : rsvField w = 0#16 ∧ imm8Field w = op.byteOperand w := by
    cases hbyte : op.takesByte with
    | true =>
      have hzero : rsvField w = 0#16 := by simpa [reservedNonzero, hbyte] using hrsv
      exact ⟨hzero, by simp [Opcode.byteOperand, hbyte]⟩
    | false =>
      have hzero : w.extractLsb' 0 24 = 0#24 := by simpa [reservedNonzero, hbyte] using hrsv
      have hfields : rsvField w ++ imm8Field w = 0#24 := (fields_eq_low24 w).trans hzero
      have hr : rsvField w = 0#16 :=
        BitVec.extractLsb'_append_eq_left.symm.trans (congrArg (BitVec.extractLsb' 8 16) hfields)
      have hi : imm8Field w = 0#8 :=
        BitVec.extractLsb'_append_eq_right.symm.trans (congrArg (BitVec.extractLsb' 0 8) hfields)
      exact ⟨hr, by simp [Opcode.byteOperand, hbyte, hi]⟩
  obtain ⟨hr, hi⟩ := hlow
  rw [Opcode.code_of_ofByte hop, ← hr, ← hi, fields_eq_word]

/-- The decoder rejects the first word, or accepts it and takes the operands of its operation code (R76). -/
theorem decode_cons_cases (w : Word) (ws : List Word) :
    (∃ why, decode (w :: ws) = .rejected why w) ∨
    ∃ op, w = op.code ++ 0#16 ++ op.byteOperand w ∧ decode (w :: ws) = takeOperands op w ws := by
  cases hop : Opcode.ofByte (opField w) with
  | none => exact .inl ⟨_, decode_undefined hop ws⟩
  | some op =>
    cases hrsv : reservedNonzero op w with
    | true => exact .inl ⟨_, decode_reserved hop hrsv ws⟩
    | false => exact .inr ⟨op, eq_layout_of_accepted hop hrsv, decode_accepted hop hrsv ws⟩

/-- A rejected word is the first of the words. -/
theorem cons_of_decode_rejected {ws : List Word} {why : Rejection} {w : Word} (h : decode ws = .rejected why w) :
    ∃ rest, ws = w :: rest := by
  cases ws with
  | nil => cases h
  | cons v rest =>
    obtain ⟨_, hd⟩ | ⟨op, -, hd⟩ := decode_cons_cases v rest
    · cases hd.symm.trans h
      exact ⟨rest, rfl⟩
    · exact absurd (hd.symm.trans h) (takeOperands_ne_rejected op v rest why w)

/-- Words that decode to a command begin with its encoding: no bit of them is ignored (R75, R78). -/
theorem eq_encode_append_of_decode {ws rest : List Word} {i : Instr} (h : decode ws = .command i rest) :
    ws = encode i ++ rest := by
  cases ws with
  | nil => cases h
  | cons w ws =>
    obtain ⟨_, hd⟩ | ⟨op, hword, hd⟩ := decode_cons_cases w ws
    · cases hd.symm.trans h
    · obtain ⟨rfl, himm, rfl⟩ := takeOperands_command (hd.symm.trans h)
      have hcommand : w = commandWord i := by rw [hword, ← himm, commandWord]
      rw [hcommand, encode, List.cons_append]

namespace Machine

/-! ## Entering FAULTED (R201, R202) -/

/-- There are three cause codes (R201). -/
theorem Cause.code_cases (c : Cause) : c.code = 1#4 ∨ c.code = 2#4 ∨ c.code = 3#4 := by
  cases c <;> simp [Cause.code]

/-- A command enters FAULTED only by NOT_CONFIGURED (R201). -/
theorem exec_enters_faulted {i : Instr} {s s' : State} (h : exec i s = .next s') (hm' : s'.mode = .faulted) :
    s' = s.raise .notConfigured (commandWord i) := by
  obtain ⟨hm, ⟨-, -, hraise⟩ | ⟨_, _, rfl⟩ | ⟨-, _, rfl⟩ | ⟨-, _, -, rfl⟩⟩ := exec_cases h
  · exact hraise
  · cases hm'
  · exact absurd hm' hm
  · exact absurd hm' hm

/-- A step enters FAULTED only by raising some cause with the word at `cp` (R202). -/
theorem step_enters_faulted {s s' : State} (h : step s = .next s') (hm' : s'.mode = .faulted) :
    ∃ (c : Cause) (w : Word), s.stream[s.cp]? = some w ∧ s' = s.raise c w := by
  obtain ⟨-, -, ⟨why, w, hd, hraise⟩ | ⟨i, rest, hd, hex⟩⟩ := step_cases h
  · obtain ⟨rest, hp⟩ := cons_of_decode_rejected hd
    exact ⟨_, w, getElem?_of_pending hp, hraise⟩
  · have hp : s.pending = commandWord i :: (i.immediates ++ rest) := eq_encode_append_of_decode hd
    exact ⟨_, _, getElem?_of_pending hp, exec_enters_faulted hex hm'⟩

/-! ## In FAULTED (R204) -/

/-- In FAULTED the block has no step (R204). -/
theorem step_faulted {s : State} (hm : s.mode = .faulted) (hc : s.cause.toNat < 4) :
    step s = .fault .noStepFaulted := by
  have hlegal : causeReserved s.cause = false := decide_eq_false (Nat.not_le.2 hc)
  simp [step, hlegal, hm]

/-! ## The statements of 60_exceptions.md -/

/-- Settles O10: a step that enters FAULTED raised a cause with the word at `cp`, and `raise` is the state of R202. -/
theorem faultEntryIsPrecise : Obligations.FaultEntryIsPrecise := by
  intro s s' h hm'
  obtain ⟨c, w, hw, rfl⟩ := step_enters_faulted h hm'
  exact ⟨w, c.code, hw, c.code_cases, rfl⟩

/-- Settles O11: neither `step` nor a meaning takes a word in FAULTED, and the ports show the fault. -/
theorem faultedAcceptsNothing : Obligations.FaultedAcceptsNothing :=
  fun s hm hc => ⟨step_faulted hm hc, exec_faulted hm, (statusPort_bit1 s).2 hm, errWordPort_faulted hm, rfl,
    fun _ => rfl⟩

end Machine

end Sys2Proof

/-! Reset and boot (70_reset_and_hazards.md): every command completes in READY and stays there with CAUSE kept, so does
every sequence of commands, and the statement on boot (R232). -/

namespace Sys2Proof.Machine

/-! ## In READY (R75, R200) -/

/-- In READY every command completes, and stays in READY with CAUSE as it was (R200). -/
theorem exec_ready {s : State} (hm : s.mode = .ready) (i : Instr) :
    ∃ s', exec i s = .next s' ∧ s'.mode = .ready ∧ s'.cause = s.cause := by
  cases i with
  | new | newp | newps =>
    refine ⟨_, exec_construction_accepts rfl (.inr hm), ?_⟩
    exact ⟨rfl, rfl⟩
  | upd | fin | rst | tabrd => exact ⟨_, whenReady_ready hm _ _, hm, rfl⟩

/-- From READY every sequence of commands completes, in any order (R232). -/
theorem runInstrs_ready {s : State} (hm : s.mode = .ready) (is : List Instr) :
    ∃ s', runInstrs is s = .next s' ∧ s'.mode = .ready ∧ s'.cause = s.cause := by
  induction is generalizing s with
  | nil => exact ⟨s, rfl, hm, rfl⟩
  | cons i is ih =>
    obtain ⟨s₁, hexec, hm₁, hc₁⟩ := exec_ready hm i
    rw [runInstrs_cons_of_next hexec, ← hc₁]
    exact ih hm₁

/-! ## The statement of 70_reset_and_hazards.md -/

/-- Settles O47: hardware reset is UNCONFIGURED without a cause, a construction leaves it for READY, and there every
sequence of commands completes. -/
theorem bootNeedsOneConstruction : Obligations.BootNeedsOneConstruction := by
  refine ⟨fun S s i hi => exec_unconfigured hi rfl, fun S s c is hc => ?_⟩
  obtain ⟨p, sd, hops⟩ := isConstruction_iff.1 hc
  rw [runInstrs_cons_of_next (exec_construction_accepts hops (.inl rfl))]
  exact runInstrs_ready rfl is

end Sys2Proof.Machine

/-! The command encoding, continued (30_encoding.md): the match and mask columns of a row by the fields of a command
word (R71, R75), and the statements on the decoder, on match and mask, and on the step of a decoded command. -/

namespace Sys2Proof

/-! ## Match and mask by fields (R71, R75) -/

/-- Two concatenations of the same widths are equal exactly where both of their parts are. -/
theorem append_eq_append_iff {n m : Nat} {a a' : BitVec n} {b b' : BitVec m} :
    a ++ b = a' ++ b' ↔ a = a' ∧ b = b' := by
  refine ⟨fun h => ⟨?_, ?_⟩, fun ⟨ha, hb⟩ => ha ▸ hb ▸ rfl⟩
  · simpa [BitVec.extractLsb'_append_eq_left] using congrArg (BitVec.extractLsb' m n) h
  · simpa [BitVec.extractLsb'_append_eq_right] using congrArg (BitVec.extractLsb' 0 m) h

/-- What a row's mask keeps of `IMM8`: nothing where it is an operand, else all of it (R71, R75). -/
def Opcode.byteMask (op : Opcode) : Byte := if op.takesByte then 0x00#8 else 0xFF#8

theorem Opcode.mask_eq_fields (op : Opcode) : op.mask = 0xFF#8 ++ 0xFFFF#16 ++ op.byteMask := by
  cases op <;> rfl

theorem Opcode.pattern_eq_fields (op : Opcode) : op.pattern = op.code ++ 0#16 ++ 0#8 := by
  cases op <;> rfl

/-- Every row's mask keeps `OP` and `RSV` whole. -/
theorem and_mask_eq_fields (w : Word) (op : Opcode) :
    w &&& op.mask = opField w ++ rsvField w ++ (imm8Field w &&& op.byteMask) := by
  have hop : opField w &&& 0xFF#8 = opField w := BitVec.and_allOnes
  have hrsv : rsvField w &&& 0xFFFF#16 = rsvField w := BitVec.and_allOnes
  conv_lhs => rw [← fields_eq_word w, Opcode.mask_eq_fields, BitVec.and_append, BitVec.and_append, hop, hrsv]

theorem and_mask_eq_pattern_iff (w : Word) (op : Opcode) :
    w &&& op.mask = op.pattern ↔ opField w = op.code ∧ rsvField w = 0#16 ∧ imm8Field w &&& op.byteMask = 0#8 := by
  rw [and_mask_eq_fields, Opcode.pattern_eq_fields, append_eq_append_iff, append_eq_append_iff, and_assoc]

theorem Opcode.ofByte_eq_some_iff {b : Byte} {op : Opcode} : Opcode.ofByte b = some op ↔ b = op.code :=
  ⟨fun h => (Opcode.code_of_ofByte h).symm, fun h => h ▸ Opcode.ofByte_code op⟩

/-- The fields that must be 0 are `RSV` and what the row's mask keeps of `IMM8` (R78). -/
theorem reservedNonzero_eq_false_iff (op : Opcode) (w : Word) :
    reservedNonzero op w = false ↔ rsvField w = 0#16 ∧ imm8Field w &&& op.byteMask = 0#8 := by
  cases hbyte : op.takesByte with
  | true => simp [reservedNonzero, Opcode.byteMask, hbyte]
  | false =>
    have hall : imm8Field w &&& 0xFF#8 = imm8Field w := BitVec.and_allOnes
    have hzero : rsvField w ++ imm8Field w = 0#24 ↔ rsvField w = 0#16 ∧ imm8Field w = 0#8 :=
      append_eq_append_iff (a' := 0#16) (b' := 0#8)
    simp [reservedNonzero, Opcode.byteMask, hbyte, ← fields_eq_low24, hall, hzero]

/-- Match and mask are the decoder's two checks of a command word (R75). -/
theorem and_mask_eq_pattern_iff_accepted (w : Word) (op : Opcode) :
    w &&& op.mask = op.pattern ↔ Opcode.ofByte (opField w) = some op ∧ reservedNonzero op w = false := by
  rw [and_mask_eq_pattern_iff, Opcode.ofByte_eq_some_iff, reservedNonzero_eq_false_iff]

/-! ## The statements of 30_encoding.md on the decoder -/

/-- Settles O1: the decoder, evaluated on the words of R75 and of the examples. -/
theorem writtenOutWordsDecode : Obligations.WrittenOutWordsDecode := by
  unfold Obligations.WrittenOutWordsDecode
  decide

/-- Settles O2: the fields of an encoded command word pass both checks, and its operands are read back. -/
theorem decodeOfEncodeIsTheCommand : Obligations.DecodeOfEncodeIsTheCommand :=
  decode_encode_append

/-- Settles O3: an accepted word is its operation code, zeros and its byte operand. -/
theorem decodedWordsAreTheEncoding : Obligations.DecodedWordsAreTheEncoding :=
  fun _ _ _ => eq_encode_append_of_decode

/-- Settles O4: match and mask are the decoder's checks, and `OP` stands for at most one operation code. -/
theorem matchAndMaskDecideTheRow : Obligations.MatchAndMaskDecideTheRow := by
  refine ⟨and_mask_eq_pattern_iff_accepted, fun w op op' h h' => ?_⟩
  obtain ⟨hop, -⟩ := (and_mask_eq_pattern_iff_accepted w op).1 h
  obtain ⟨hop', -⟩ := (and_mask_eq_pattern_iff_accepted w op').1 h'
  exact Option.some.inj (hop.symm.trans hop')

namespace Machine

/-- Settles O8: the step is what the decoder's answer says, and a command without a fault moves `cp` by its length. -/
theorem stepExecutesTheDecodedCommand : Obligations.StepExecutesTheDecodedCommand := by
  intro s i rest h hd
  have hpending : decode s.pending = .command i rest := hd
  refine ⟨by rw [step_of_accepting h, hpending], fun s' hexec hm' => ?_⟩
  obtain ⟨hm, -⟩ | ⟨-, hcp⟩ := exec_cp hexec
  · exact absurd hm hm'
  · rw [hcp, encode_length]

/-- Settles O48: each step takes the words of one command and executes it. -/
theorem streamRunsItsCommandsInOrder : Obligations.StreamRunsItsCommandsInOrder :=
  fun _ _ _ => run_eq_runInstrs

end Machine

end Sys2Proof

/-! The assembler (30_encoding.md section 6): the words of a line, by the words of its commands (R82), and of the two
pseudo-instructions (R83, R84). -/

namespace Sys2Proof.Machine

/-! ## The words of a line -/

theorem assembleLine_of_wellFormed {l : AsmLine} (h : l.wellFormed = true) : assembleLine l = some (lineWords l) :=
  if_pos h

@[simp] theorem fitsByte_iff (n : Nat) : fitsByte n = true ↔ n ≤ 255 := decide_eq_true_iff

@[simp] theorem fitsWord_iff (n : Nat) : fitsWord n = true ↔ n ≤ 0xFFFFFFFF := decide_eq_true_iff

/-- A byte operand in its range, widened with zeros, is the number itself. -/
theorem asmByte_setWidth {n : Nat} (h : n ≤ 255) : (asmByte n).setWidth 32 = BitVec.ofNat 32 n := by
  apply BitVec.eq_of_toNat_eq
  simp only [asmByte, BitVec.toNat_setWidth, BitVec.toNat_ofNat]
  omega

/-- The one word of a command with a byte operand alone: its row's fixed bits and the number. -/
theorem encode_of_imm8 {i : Instr} {n : Nat} (hi : i.immediates = []) (hbyte : i.imm8 = asmByte n) (h : n ≤ 255) :
    encode i = [i.opcode.pattern ||| BitVec.ofNat 32 n] := by
  rw [encode, hi, commandWord_eq_or, hbyte, asmByte_setWidth h]

/-- A line of a command with a byte operand alone has that one word (R82). -/
theorem assembleLine_byte {l : AsmLine} {i : Instr} {n : Nat} (hfits : l.wellFormed = fitsByte n)
    (hwords : lineWords l = encode i) (hi : i.immediates = []) (hbyte : i.imm8 = asmByte n) :
    assembleLine l = if n ≤ 255 then some [i.opcode.pattern ||| BitVec.ofNat 32 n] else none := by
  by_cases h : n ≤ 255
  · rw [assembleLine_of_wellFormed (hfits.trans ((fitsByte_iff n).2 h)), hwords, encode_of_imm8 hi hbyte h, if_pos h]
  · simp [assembleLine, hfits, h]

/-! ## The words of a sequence of bytes (R83) -/

/-- One UPD word a byte, in order. -/
theorem encodeAll_expandUpds {bs : List Nat} (h : ∀ b ∈ bs, b ≤ 255) :
    encodeAll (expandUpds (bs.map asmByte)) = bs.map fun b => 0x10000000#32 ||| BitVec.ofNat 32 b := by
  induction bs with
  | nil => rfl
  | cons b bs ih =>
    obtain ⟨hb, hbs⟩ := List.forall_mem_cons.1 h
    have hword : encode (.upd (asmByte b)) = [0x10000000#32 ||| BitVec.ofNat 32 b] := encode_of_imm8 rfl rfl hb
    calc encodeAll (expandUpds ((b :: bs).map asmByte))
        = encode (.upd (asmByte b)) ++ encodeAll (expandUpds (bs.map asmByte)) := encodeAll_cons _ _
      _ = (b :: bs).map fun b => 0x10000000#32 ||| BitVec.ofNat 32 b := by rw [hword, ih hbs]; rfl

theorem encodeAll_append (is js : List Instr) : encodeAll (is ++ js) = encodeAll is ++ encodeAll js :=
  List.flatMap_append

/-! ## The statements of 30_encoding.md section 6 -/

/-- Settles O51: each line has the words of its command where its operands fit, and none where one does not. -/
theorem assemblerLinesAndRanges : Obligations.AssemblerLinesAndRanges := by
  refine ⟨rfl, rfl, rfl, fun p => ?_, fun p s => ?_,
    fun b => assembleLine_byte (i := .upd (asmByte b)) rfl rfl rfl rfl,
    fun i => assembleLine_byte (i := .tabrd (asmByte i)) rfl rfl rfl rfl, fun w => ?_⟩
  · simp [assembleLine, AsmLine.wellFormed, lineWords, encode, Instr.immediates, asmWord]
  · simp [assembleLine, AsmLine.wellFormed, lineWords, encode, Instr.immediates, asmWord]
  · simp [assembleLine, AsmLine.wellFormed, lineWords, asmWord]

/-- Settles O52: every byte of the list fits, and the encoding of a sequence is that of its parts. -/
theorem pseudoInstructionsExpand : Obligations.PseudoInstructionsExpand := by
  intro bs h
  have hfits : bs.all fitsByte = true := by simpa using h
  have hfin : encodeAll [.fin] = [0x20000000#32] := rfl
  have hrst : encode .rst = [0x30000000#32] := rfl
  constructor
  · rw [assembleLine_of_wellFormed (l := .upds bs) hfits, lineWords, encodeAll_expandUpds h]
  · rw [assembleLine_of_wellFormed (l := .hash bs) hfits, lineWords, expandHash, encodeAll_cons, encodeAll_append,
      encodeAll_expandUpds h, hfin, hrst]
    rfl

end Sys2Proof.Machine

/-! The access matrix and the invariant (10_state.md sections 8 and 9): what each kind of command does, the frame of all
commands (R36, R55), and the invariant at hardware reset, under the host's sending, and under every step. -/

namespace Sys2Proof.Machine

/-! ## The rows of the access matrix (R36) -/

/-- What a command that answers a next state has done, by the row of its command in the access matrix (R36): a command
that is no construction raised NOT_CONFIGURED, wrote STATE or emitted, and a construction built the engine. -/
theorem exec_cases_by_kind {i : Instr} {s s' : State} (h : exec i s = .next s') :
    (s.mode = .unconfigured ∧ isConstruction i = false ∧ s' = s.raise .notConfigured (commandWord i)) ∨
    (s.mode ≠ .faulted ∧ isConstruction i = true ∧ ∃ p sd, s' = (s.construct p sd).advance i.opcode.length) ∨
    (s.mode = .ready ∧ (i = .rst ∨ ∃ b, i = .upd b) ∧ ∃ v, s' = (s.setState v).advance 1) ∨
    (s.mode = .ready ∧ (i = .fin ∨ ∃ k, i = .tabrd k) ∧ ∃ bs, s' = (s.emit bs).advance 1) := by
  cases i with
  | new | newp | newps =>
    obtain ⟨hm, hs'⟩ := constructCommand_next h
    exact .inr (.inl ⟨hm, rfl, _, _, hs'⟩)
  | upd b =>
    exact (execUpd_next h).imp (fun ⟨hm, hs'⟩ => ⟨hm, rfl, hs'⟩) fun ⟨hm, hs'⟩ =>
      .inr (.inl ⟨hm, .inr ⟨b, rfl⟩, _, hs'⟩)
  | rst =>
    exact (execRst_next h).imp (fun ⟨hm, hs'⟩ => ⟨hm, rfl, hs'⟩) fun ⟨hm, hs'⟩ =>
      .inr (.inl ⟨hm, .inl rfl, _, hs'⟩)
  | fin =>
    exact (execFin_next h).imp (fun ⟨hm, hs'⟩ => ⟨hm, rfl, hs'⟩) fun ⟨hm, hs'⟩ =>
      .inr (.inr ⟨hm, .inl rfl, _, hs'⟩)
  | tabrd k =>
    exact (execTabrd_next h).imp (fun ⟨hm, hs'⟩ => ⟨hm, rfl, hs'⟩) fun ⟨hm, hs'⟩ =>
      .inr (.inr ⟨hm, .inr ⟨k, rfl⟩, _, hs'⟩)

/-- RST, executed once, leaves STATE at SEED (R141). -/
theorem exec_rst_state {s s' : State} (h : exec .rst s = .next s') (hm' : s'.mode ≠ .faulted) : s'.state = s'.seed := by
  obtain ⟨-, rfl⟩ | ⟨-, rfl⟩ := execRst_next h
  · exact absurd rfl hm'
  · rfl

/-! ## The invariant (R26, R28 to R31, R202) -/

/-- Hardware reset meets the invariant: nothing is constructed, no fault is recorded and OUT is empty (R230). -/
theorem inv_hardwareReset (S : List Word) (s : State) : Inv (hardwareReset S s) where
  cause_legal := by show (0#4).toNat < 4; decide
  cause_zero_iff := ⟨fun _ => nofun, fun _ => rfl⟩
  unconfigured_unbuilt := fun _ => rfl
  ready_constructed := nofun
  table_generated := nofun
  fault_record := nofun
  cp_le := Nat.zero_le _
  out_len := rfl

/-- The host's words join the end of the stream, so the fault record and `cp` stay in it (R236). -/
theorem Inv.hostSend {s : State} (h : Inv s) (ws : List Word) : Inv (hostSend ws s) where
  cause_legal := h.cause_legal
  cause_zero_iff := h.cause_zero_iff
  unconfigured_unbuilt := h.unconfigured_unbuilt
  ready_constructed := h.ready_constructed
  table_generated := h.table_generated
  fault_record := fun hm => by
    obtain ⟨hcp, hword⟩ := h.fault_record hm
    obtain ⟨hlt, -⟩ := List.getElem?_eq_some_iff.1 hword
    exact ⟨hcp, (List.getElem?_append_left hlt).trans hword⟩
  cp_le := by
    have hlen : (s.stream ++ ws).length = s.stream.length + ws.length := List.length_append
    exact Nat.le_trans h.cp_le (hlen ▸ Nat.le_add_right _ _)
  out_len := h.out_len

/-- A cause is never reserved (R201), and is not the code of no fault. -/
theorem Cause.code_legal (c : Cause) : c.code.toNat < Config.firstReservedCause := by
  cases c <;> decide

theorem Cause.code_ne_zero (c : Cause) : c.code ≠ 0#4 := by
  cases c <;> decide

/-- Taking a fault with the word at `cp` keeps the invariant: the record names that word (R202). -/
theorem Inv.raise {s : State} (h : Inv s) {w : Word} (hw : s.stream[s.cp]? = some w)
    (c : Cause) : Inv (s.raise c w) where
  cause_legal := c.code_legal
  cause_zero_iff := ⟨fun hc => absurd hc c.code_ne_zero, fun hm' => absurd rfl hm'⟩
  unconfigured_unbuilt := nofun
  ready_constructed := nofun
  table_generated := h.table_generated
  fault_record := fun _ => ⟨rfl, hw⟩
  cp_le := (List.getElem?_eq_some_iff.1 hw).1
  out_len := h.out_len

/-- A construction keeps the invariant: it writes the table that its polynomial generates (R26). -/
theorem Inv.construct {s : State} (h : Inv s) (hm : s.mode ≠ .faulted) (p sd : Word) : Inv (s.construct p sd) where
  cause_legal := h.cause_legal
  cause_zero_iff := ⟨fun _ => nofun, fun _ => h.cause_zero_iff.2 hm⟩
  unconfigured_unbuilt := nofun
  ready_constructed := fun _ => rfl
  table_generated := fun _ => rfl
  fault_record := nofun
  cp_le := h.cp_le
  out_len := h.out_len

/-- The invariant does not speak of STATE. -/
theorem Inv.setState {s : State} (h : Inv s) (v : Word) : Inv (s.setState v) := { h with }

/-- A response of 4 bytes keeps the invariant (R29). -/
theorem Inv.emit {s : State} (h : Inv s) {bs : List Byte} (hbs : bs.length = 4) : Inv (s.emit bs) :=
  { h with
    out_len := by
      have hlen : (s.emit bs).out.length = s.out.length + 4 := by rw [State.emit_out, List.length_append, hbs]
      have := h.out_len
      omega }

/-- Outside FAULTED `cp` may move on to any place in the stream. -/
theorem Inv.advance {s : State} (h : Inv s) (hm : s.mode ≠ .faulted) {n : Nat} (hn : s.cp + n ≤ s.stream.length) :
    Inv (s.advance n) :=
  { h with
    fault_record := fun hm' => absurd hm' hm
    cp_le := hn }

/-- The words of a pending command are in the stream. -/
theorem cp_add_length_le {s : State} {i : Instr} {rest : List Word} (hd : decode s.pending = .command i rest) :
    s.cp + i.opcode.length ≤ s.stream.length := by
  have hp : s.pending = commandWord i :: (i.immediates ++ rest) := eq_encode_append_of_decode hd
  have hstream := stream_length_of_pending hp
  have hwords : i.immediates.length + 1 = i.opcode.length := encode_length i
  rw [List.length_append] at hstream
  omega

/-- A command whose words are pending keeps the invariant. -/
theorem Inv.exec {s s' : State} (h : Inv s) {i : Instr} {rest : List Word} (hd : decode s.pending = .command i rest)
    (hexec : exec i s = .next s') : Inv s' := by
  have hlen := cp_add_length_le hd
  have hp : s.pending = commandWord i :: (i.immediates ++ rest) := eq_encode_append_of_decode hd
  obtain ⟨hm, ⟨-, -, rfl⟩ | ⟨p, sd, rfl⟩ | ⟨-, v, rfl⟩ | ⟨-, bs, hbs, rfl⟩⟩ := exec_cases hexec
  · exact h.raise (getElem?_of_pending hp) _
  · exact (h.construct hm p sd).advance nofun hlen
  · exact (h.setState v).advance hm hlen
  · exact (h.emit hbs).advance hm hlen

/-- Every step keeps the invariant: it takes a fault with the word at `cp`, or it executes a pending command. -/
theorem Inv.step {s s' : State} (h : Inv s) (hstep : step s = .next s') : Inv s' := by
  obtain ⟨-, hm, ⟨why, w, hd, rfl⟩ | ⟨i, rest, hd, hexec⟩⟩ := step_cases hstep
  · obtain ⟨rest, hp⟩ := cons_of_decode_rejected hd
    exact h.raise (getElem?_of_pending hp) _
  · exact h.exec hd hexec

/-! ## The statements on frames and on the invariant -/

/-- Settles O40: the row of the command in the access matrix, for each thing that a command can have done. -/
theorem commandsWriteOnlyTheirElements : Obligations.CommandsWriteOnlyTheirElements := by
  intro i s s' h
  obtain ⟨-, hi, rfl⟩ | ⟨hm, hi, p, sd, rfl⟩ | ⟨hm, hi, v, rfl⟩ | ⟨hm, hi, bs, rfl⟩ := exec_cases_by_kind h
  · exact ⟨rfl, fun _ => ⟨rfl, rfl, rfl, rfl⟩, fun _ => rfl, fun _ hm' => absurd rfl hm', fun _ => rfl,
      fun hm' => absurd rfl hm', fun _ => ⟨rfl, rfl, rfl, rfl, rfl, rfl⟩⟩
  · refine ⟨rfl, fun hi' => ?_, fun hi' => ?_, fun hi' => ?_, fun _ => rfl, fun _ => ⟨rfl, rfl, rfl⟩, nofun⟩
    · cases hi.symm.trans hi'
    · obtain rfl | ⟨k, rfl⟩ := hi' <;> cases hi
    · cases hi.symm.trans hi'
  · refine ⟨rfl, fun _ => ⟨rfl, rfl, rfl, rfl⟩, fun hi' => ?_, fun _ _ => rfl, fun _ => rfl,
      fun _ => ⟨rfl, rfl, rfl⟩, fun hm' => ?_⟩
    · obtain rfl | ⟨k, rfl⟩ := hi' <;> simp at hi
    · cases hm.symm.trans hm'
  · refine ⟨rfl, fun _ => ⟨rfl, rfl, rfl, rfl⟩, fun _ => rfl, fun _ _ => rfl, fun hi' => ?_,
      fun _ => ⟨rfl, rfl, rfl⟩, fun hm' => ?_⟩
    · obtain rfl | ⟨k, rfl⟩ := hi <;> cases hi'
    · cases hm.symm.trans hm'

/-- Settles O41: a construction writes its operands again, FIN and TABRD write none of the four, and RST finds STATE at
SEED. -/
theorem commandsOtherThanUpdAreIdempotent : Obligations.CommandsOtherThanUpdAreIdempotent := by
  intro i s s' s'' hupd h h'
  obtain ⟨hm', -⟩ := exec_cases h'
  cases hi : isConstruction i with
  | true =>
    obtain ⟨p, sd, hops⟩ := isConstruction_iff.1 hi
    obtain ⟨-, hp, hsd, ht, hv⟩ := readyWith_of_exec_construction hops h
    obtain ⟨-, hp', hsd', ht', hv'⟩ := readyWith_of_exec_construction hops h'
    exact ⟨hv'.trans hv.symm, hp'.trans hp.symm, hsd'.trans hsd.symm, ht'.trans ht.symm⟩
  | false =>
    obtain ⟨-, hengine, hstate, -⟩ := commandsWriteOnlyTheirElements i s' s'' h'
    obtain ⟨hp, hsd, ht, -⟩ := hengine hi
    refine ⟨?_, hp, hsd, ht⟩
    cases i with
    | new | newp | newps => cases hi
    | upd b => exact absurd rfl (hupd b)
    | fin => exact hstate (.inl rfl)
    | tabrd k => exact hstate (.inr ⟨k, rfl⟩)
    | rst =>
      obtain ⟨-, rfl⟩ | ⟨-, rfl⟩ := execRst_next h'
      · rfl
      · exact (exec_rst_state h hm').symm

/-- Settles O42. -/
theorem resetMeetsTheInvariant : Obligations.ResetMeetsTheInvariant :=
  ⟨inv_hardwareReset [] State.reset, inv_hardwareReset⟩

/-- Settles O43: a step takes a fault with the word at `cp`, or it executes a command whose words are in the stream. -/
theorem stepKeepsTheInvariant : Obligations.StepKeepsTheInvariant :=
  fun _ _ h => h.step

/-- Settles O44: the words join the end of the stream. -/
theorem hostSendKeepsTheInvariant : Obligations.HostSendKeepsTheInvariant :=
  fun ws _ h => h.hostSend ws

end Sys2Proof.Machine

/-! Causes (60_exceptions.md section 1): what a command and a step do to CAUSE, and the statements on its priority
(R201, R203), on reserved codes (I13) and on READY (R200). -/

namespace Sys2Proof.Machine

/-- A command leaves CAUSE, or raises NOT_CONFIGURED: in UNCONFIGURED, where it is no construction (R201). -/
theorem exec_cause {i : Instr} {s s' : State} (h : exec i s = .next s') :
    s'.cause = if s.mode = .unconfigured ∧ isConstruction i = false then 3#4 else s.cause := by
  obtain ⟨hm, hi, rfl⟩ | ⟨-, hi, p, sd, rfl⟩ | ⟨hm, -, v, rfl⟩ | ⟨hm, -, bs, rfl⟩ := exec_cases_by_kind h
  · exact (if_pos ⟨hm, hi⟩).symm
  · exact (if_neg (by simp [hi])).symm
  · exact (if_neg (by simp [hm])).symm
  · exact (if_neg (by simp [hm])).symm

/-- The four commands that are no construction, by operation code (R75). -/
theorem isConstruction_eq_false_iff (i : Instr) : isConstruction i = false ↔
    i.opcode = .upd ∨ i.opcode = .fin ∨ i.opcode = .rst ∨ i.opcode = .tabrd := by
  cases i <;> simp [isConstruction, Instr.opcode]

theorem causeReserved_eq_false_iff {c : BitVec 4} : causeReserved c = false ↔ c.toNat < Config.firstReservedCause :=
  decide_eq_false_iff_not.trans Nat.not_le

/-- Only an accepting state has a next state (R204, I13). -/
theorem accepting_of_step_next {s s' : State} (h : step s = .next s') : Accepting s := by
  obtain ⟨hc, hm, -⟩ := step_cases h
  exact ⟨hm, causeReserved_eq_false_iff.1 hc⟩

/-! ## The statements of 60_exceptions.md section 1 -/

/-- Settles O9: the decoder makes the first two checks in this order, and only an accepted word reaches the third. -/
theorem causeIsTheFirstInPriority : Obligations.CauseIsTheFirstInPriority := by
  intro s s' w hw h
  have hacc := accepting_of_step_next h
  cases hop : Opcode.ofByte (opField w) with
  | none =>
    cases (step_undefined hacc hw hop).symm.trans h
    rfl
  | some op =>
    cases hrsv : reservedNonzero op w with
    | true =>
      cases (step_reserved hacc hw hop hrsv).symm.trans h
      exact (if_pos hrsv).symm
    | false =>
      have hd : decode s.pending = takeOperands op w (s.stream.drop (s.cp + 1)) := by
        rw [pending_of_getElem? hw, decode_accepted hop hrsv]
      obtain ⟨-, -, ⟨why, w', hd', -⟩ | ⟨i, rest, hd', hexec⟩⟩ := step_cases h
      · exact absurd (hd.symm.trans hd') (takeOperands_ne_rejected op w _ why w')
      · obtain ⟨rfl, -, -⟩ := takeOperands_command (hd.symm.trans hd')
        have haccepted : ¬ reservedNonzero i.opcode w = true := by simp [hrsv]
        simp only [exec_cause hexec, isConstruction_eq_false_iff, if_neg haccepted]

/-- Settles O12. -/
theorem reservedCauseIsRefused : Obligations.ReservedCauseIsRefused := by
  intro s hc
  have hreserved : causeReserved s.cause = true := decide_eq_true hc
  rw [step, if_pos hreserved]

/-- Settles O46. -/
theorem everyCommandCompletesInReady : Obligations.EveryCommandCompletesInReady :=
  fun _ i hm => exec_ready hm i

end Sys2Proof.Machine

/-! Update and digest, continued (41_update.md, 42_finalize_reset.md): the index by bytes, the UPDs of a message, and the
statements on the index (R8, R50), on UPD (R120, R121), on `BE4` (R52) and on what FIN reads (90_conflicts.md C1). -/

namespace Sys2Proof.Machine

/-- Read as 8 bits and widened again, the index is what it was (R50). -/
theorem updIndex_setWidth (b : Byte) (v : Word) : (updIndex b v).setWidth 32 = updIndexWord b v := by
  apply BitVec.eq_of_toNat_eq
  rw [BitVec.toNat_setWidth, updIndex_toNat]
  exact Nat.mod_eq_of_lt (Nat.lt_trans (updIndexWord_toNat_lt b v) (by decide))

/-- The index is the byte XOR the low byte of STATE (R120). -/
theorem updIndex_eq_xor (b : Byte) (v : Word) : updIndex b v = b ^^^ v.setWidth 8 := by
  have hmask : v.setWidth 8 &&& (0x000000FF#32).setWidth 8 = v.setWidth 8 := BitVec.and_allOnes
  have hbyte : (b.setWidth 32).setWidth 8 = b := BitVec.setWidth_setWidth_of_le b (by decide)
  rw [updIndex, updIndexWord, zext32, BitVec.setWidth_xor, BitVec.setWidth_and, hmask, hbyte]

/-- In READY the UPDs of `m` fold its bytes into STATE, and move `cp` past their words (R121). -/
theorem runInstrs_expandUpds {s : State} (hm : s.mode = .ready) (m : List Byte) :
    runInstrs (expandUpds m) s = .next ((s.setState (m.foldl (updateByte s.table) s.state)).advance m.length) := by
  induction m generalizing s with
  | nil => rfl
  | cons b m ih =>
    have hcp : s.cp + 1 + m.length = s.cp + (b :: m).length := by
      rw [List.length_cons]
      omega
    have hrest := ih (s := (s.setState (updateByte s.table s.state b)).advance 1) hm
    refine (runInstrs_cons_of_next (exec_upd_ready hm b) _).trans (hrest.trans ?_)
    simp only [State.advance, State.setState, List.foldl_cons, hcp]

/-! ## The statements of 41_update.md and 42_finalize_reset.md -/

/-- Settles O20: both parts of the index are below 256. -/
theorem updateIndexFitsTheTable : Obligations.UpdateIndexFitsTheTable :=
  fun b v => ⟨updIndexWord_toNat_lt b v, updIndex_setWidth b v⟩

/-- Settles O21: the index is 0 in the first case and the byte in the second, and entry 0 is 0. -/
theorem updateCornerCases : Obligations.UpdateCornerCases := by
  refine ⟨fun p v => ?_, fun p b => ?_⟩
  · rw [updateByte, updIndex_eq_xor, BitVec.xor_self, tableEntry_genTable, genEntry_zero, BitVec.xor_zero]
  · rw [updateByte, updIndex_eq_xor, BitVec.zero_ushiftRight, BitVec.setWidth_zero, BitVec.xor_zero, BitVec.zero_xor]

/-- Settles O22; the fold of the statement is that of `updateByte`. -/
theorem streamedUpdatesFoldFromTheLeft : Obligations.StreamedUpdatesFoldFromTheLeft :=
  fun _ m hm => runInstrs_expandUpds hm m

/-- Settles O26: each byte of the word is reached by dropping the bytes below it. -/
theorem digestBytesAreBigEndian : Obligations.DigestBytesAreBigEndian := by
  intro a b c d
  have hdrop {n k : Nat} (x : BitVec n) (y : Byte) (hk : 8 ≤ k) :
      (x ++ y).extractLsb' k 8 = x.extractLsb' (k - 8) 8 := BitVec.extractLsb'_append_eq_of_le hk
  rw [be4, hdrop _ d (k := 24) (by decide), hdrop _ c (by decide), hdrop _ d (k := 16) (by decide),
    hdrop _ c (by decide), hdrop _ d (k := 8) (by decide), BitVec.extractLsb'_append_eq_right,
    BitVec.extractLsb'_append_eq_right, BitVec.extractLsb'_append_eq_right, BitVec.extractLsb'_append_eq_left]

/-- Settles O27: FIN's fault and its digest are both the same whatever these elements hold. -/
theorem finReadsOnlyTheState : Obligations.FinReadsOnlyTheState := by
  intro s s' p sd t h
  obtain ⟨hm, rfl⟩ | ⟨hm, rfl⟩ := execFin_next h
  · exact exec_unconfigured (i := .fin) rfl hm
  · exact exec_fin_ready hm

end Sys2Proof.Machine

/-! Runs (70_reset_and_hazards.md): where the decoder finds no word or too few, the stops of a step, the three ends of a
run (R238), and the statements on starting over (R231) and on the end of a run (R238, R239). -/

namespace Sys2Proof

/-! ## No word, and too few words (R76, R81) -/

/-- Operands are missing only of a NEWP with no word after it and of a NEWPS with fewer than two (R81). -/
theorem takeOperands_incomplete {op : Opcode} {w : Word} {ws : List Word} (h : takeOperands op w ws = .incomplete) :
    (op = .newp ∧ ws = []) ∨ (op = .newps ∧ ws.length < 2) := by
  cases op with
  | new | upd | fin | rst | tabrd => cases h
  | newp =>
    match ws, h with
    | [], _ => exact .inl ⟨rfl, rfl⟩
  | newps =>
    match ws, h with
    | [], _ => exact .inr ⟨rfl, Nat.zero_lt_two⟩
    | [_], _ => exact .inr ⟨rfl, Nat.one_lt_two⟩

/-- Taking operands answers a command or finds words missing. -/
theorem takeOperands_ne_noWord (op : Opcode) (w : Word) (ws : List Word) : takeOperands op w ws ≠ .noWord := by
  cases op with
  | new | upd | fin | rst | tabrd => exact Decoded.noConfusion
  | newp => rcases ws with _ | ⟨_, _⟩ <;> exact Decoded.noConfusion
  | newps => rcases ws with _ | ⟨_, _ | ⟨_, _⟩⟩ <;> exact Decoded.noConfusion

/-- The decoder finds no word exactly where none is waiting (R76). -/
theorem decode_eq_noWord_iff {ws : List Word} : decode ws = .noWord ↔ ws = [] := by
  refine ⟨fun h => ?_, fun h => h ▸ rfl⟩
  cases ws with
  | nil => rfl
  | cons w ws =>
    obtain ⟨_, hd⟩ | ⟨op, -, hd⟩ := decode_cons_cases w ws
    · cases hd.symm.trans h
    · exact absurd (hd.symm.trans h) (takeOperands_ne_noWord op w ws)

/-- The decoder finds a command incomplete exactly where a NEWP or NEWPS word has too few words after it (R81). -/
theorem decode_eq_incomplete_iff {ws : List Word} :
    decode ws = .incomplete ↔ ws = [0x02000000#32] ∨ ∃ rest, rest.length < 2 ∧ ws = 0x03000000#32 :: rest := by
  constructor
  · intro h
    cases ws with
    | nil => cases h
    | cons w ws =>
      obtain ⟨_, hd⟩ | ⟨op, hword, hd⟩ := decode_cons_cases w ws
      · cases hd.symm.trans h
      · obtain ⟨rfl, rfl⟩ | ⟨rfl, hlen⟩ := takeOperands_incomplete (hd.symm.trans h)
        · exact .inl (congrArg (· :: []) (hword.trans (commandWord_newp 0#32)))
        · exact .inr ⟨ws, hlen, congrArg (· :: ws) (hword.trans (commandWord_newps 0#32 0#32))⟩
  · rintro (rfl | ⟨rest, hlen, rfl⟩)
    · exact decode_newp_incomplete
    · exact decode_newps_incomplete hlen

namespace Machine

/-! ## The stops of a step -/

/-- Outside FAULTED every command answers a next state (R200, R201). -/
theorem exec_accepts {s : State} (hm : s.mode ≠ .faulted) (i : Instr) : ∃ s', exec i s = .next s' := by
  cases hmode : s.mode with
  | faulted => exact absurd hmode hm
  | ready =>
    obtain ⟨s', hexec, -⟩ := exec_ready hmode i
    exact ⟨s', hexec⟩
  | unconfigured =>
    cases hi : isConstruction i with
    | false => exact ⟨_, exec_unconfigured hi hmode⟩
    | true =>
      obtain ⟨p, sd, hops⟩ := isConstruction_iff.1 hi
      exact ⟨_, exec_construction_accepts hops (.inl hmode)⟩

/-- An accepting state has no step exactly where no word, or too few words of a command, are waiting. -/
theorem step_eq_fault_iff {s : State} (h : Accepting s) {r : Fault} :
    step s = .fault r ↔ (decode s.pending = .noWord ∧ r = .noStepIdle) ∨
      (decode s.pending = .incomplete ∧ r = .noStepWaiting) := by
  rw [step_of_accepting h]
  cases decode s.pending with
  | noWord | incomplete | rejected => simp [eq_comm]
  | command i rest =>
    obtain ⟨s', hexec⟩ := exec_accepts h.1 i
    simp [hexec]

/-- A state with a legal cause has a next state, or stops in the way of one of the three ends. -/
theorem step_next_or_stop {s : State} (hc : s.cause.toNat < Config.firstReservedCause) :
    (∃ s', step s = .next s') ∨ ∃ e : RunEnd, step s = .fault e.stop := by
  by_cases hm : s.mode = .faulted
  · exact .inr ⟨.faulted, step_faulted hm hc⟩
  · rw [step_of_accepting ⟨hm, hc⟩]
    cases decode s.pending with
    | noWord => exact .inr ⟨.completed, rfl⟩
    | incomplete => exact .inr ⟨.waiting, rfl⟩
    | rejected why w => exact .inl ⟨_, rfl⟩
    | command i rest => exact .inl (exec_accepts hm i)

/-! ## The three ends (R238) -/

/-- A run is completed exactly where no word is waiting. -/
theorem completed_iff {s : State} (hm : s.mode ≠ .faulted) (hcp : s.cp ≤ s.stream.length) :
    RunEnd.condition .completed s ↔ decode s.pending = .noWord := by
  rw [decode_eq_noWord_iff, State.pending, List.drop_eq_nil_iff]
  exact ⟨fun h => h.2.ge, fun h => ⟨hm, Nat.le_antisymm hcp h⟩⟩

/-- A run waits exactly where the decoder finds a command incomplete. -/
theorem waiting_iff {s : State} (hm : s.mode ≠ .faulted) :
    RunEnd.condition .waiting s ↔ decode s.pending = .incomplete := by
  rw [decode_eq_incomplete_iff]
  constructor
  · rintro ⟨-, -, ⟨hw, hlen⟩ | ⟨hw, hlen⟩⟩
    all_goals
      have hp := pending_of_getElem? hw
      have hstream := stream_length_of_pending hp
    · have hnil : s.stream.drop (s.cp + 1) = [] := List.length_eq_zero_iff.1 (by omega)
      exact .inl (hnil ▸ hp)
    · exact .inr ⟨_, by omega, hp⟩
  · rintro (hp | ⟨rest, hrest, hp⟩)
    · exact waiting_of_pending_newp hm hp
    · exact waiting_of_pending_newps hm hrest hp

/-- The condition of an end holds exactly where a step stops in its way (R238). -/
theorem condition_iff_stop {s : State} (h : Inv s) (e : RunEnd) : e.condition s ↔ step s = .fault e.stop := by
  by_cases hm : s.mode = .faulted
  · rw [step_faulted hm h.cause_legal]
    cases e with
    | completed => exact ⟨fun hend => absurd hm hend.1, nofun⟩
    | faulted => exact ⟨fun _ => rfl, fun _ => hm⟩
    | waiting => exact ⟨fun hend => absurd hm hend.1, nofun⟩
  · rw [step_eq_fault_iff ⟨hm, h.cause_legal⟩]
    cases e with
    | completed => simp [completed_iff hm h.cp_le, RunEnd.stop]
    | faulted => simp [RunEnd.condition, RunEnd.stop, hm]
    | waiting => simp [waiting_iff hm, RunEnd.stop]

/-! ## Runs, step by step -/

/-- Every step takes at least one word (R22). -/
theorem step_cp_lt {s s' : State} (h : step s = .next s') : s.cp < s'.cp := by
  obtain ⟨-, ⟨-, hcp⟩ | ⟨-, i, rest, -, hcp, hpos, -⟩⟩ := commandPointerNeverJumps.2 s s' h <;> omega

theorem run_succ_of_next {s s' : State} (h : step s = .next s') (n : Nat) :
    Host.Core.run core (n + 1) s = Host.Core.run core n s' := by
  have hstep : core.step s = .next s' := h
  simp only [Host.Core.run, hstep]

theorem run_succ_of_fault {s : State} {r : Fault} (h : step s = .fault r) (n : Nat) :
    Host.Core.run core (n + 1) s = .fault r := by
  have hstep : core.step s = .fault r := h
  simp only [Host.Core.run, hstep]

/-! ## The statements of 70_reset_and_hazards.md on runs -/

/-- Settles O29: both leave an engine of that polynomial and seed, in READY, and neither writes CAUSE or OUT. -/
theorem rstEqualsReconstruction : Obligations.RstEqualsReconstruction := by
  intro p sd v s h
  obtain ⟨hm, hp, hsd, ht, -⟩ := h
  exact ⟨_, _, exec_rst_ready hm, exec_construction_accepts (i := .newps p sd) rfl (.inr hm),
    hp, hsd, ht, hsd, hm, rfl, rfl⟩

/-- Settles O49: each end is the stop of its name, and a state without a next state stops in one of these ways. -/
theorem runEndsAreTheStatesWithoutStep : Obligations.RunEndsAreTheStatesWithoutStep := by
  refine ⟨fun s h => ⟨condition_iff_stop h, ?_⟩, fun e => by cases e <;> simp [RunEnd.final]⟩
  simp only [condition_iff_stop h]
  constructor
  · intro hnone
    obtain ⟨s', hstep⟩ | hstop := step_next_or_stop h.cause_legal
    · exact absurd hstep (hnone s')
    · exact hstop
  · rintro ⟨e, hstop⟩ s' hstep
    cases hstop.symm.trans hstep

/-- Settles O50, by induction on the number of unconsumed words, of which each step takes at least one. -/
theorem everyRunEnds : Obligations.EveryRunEnds := by
  intro s h
  induction hk : s.stream.length - s.cp using Nat.strong_induction_on generalizing s with
  | _ k ih =>
    obtain ⟨s₁, hstep⟩ | ⟨e, hstop⟩ := step_next_or_stop h.cause_legal
    · have hinv := h.step hstep
      have hcp := step_cp_lt hstep
      have hle := hinv.cp_le
      have hstream := congrArg List.length (step_stream hstep)
      obtain ⟨n, s', e, hn, hrun, hend⟩ := ih _ (by omega) s₁ hinv rfl
      exact ⟨n + 1, s', e, by omega, (run_succ_of_next hstep n).trans hrun, hend⟩
    · exact ⟨0, s, e, Nat.zero_le _, rfl, hstop, (condition_iff_stop h e).2 hstop⟩

end Machine

end Sys2Proof

/-! Unwritten elements (10_state.md section 8): two states that agree but for the values of unwritten elements stay so
under every operation, command, step and run, and the statement that these values are never seen (R35). -/

namespace Sys2Proof.Machine

/-! ## Operations on states that agree -/

theorem AgreeOnWritten.pending {a b : State} (h : AgreeOnWritten a b) : a.pending = b.pending := by
  rw [State.pending, State.pending, h.stream, h.cp]

theorem AgreeOnWritten.advance {a b : State} (h : AgreeOnWritten a b) (n : Nat) :
    AgreeOnWritten (a.advance n) (b.advance n) :=
  { h with cp := congrArg (· + n) h.cp }

theorem AgreeOnWritten.emit {a b : State} (h : AgreeOnWritten a b) (bs : List Byte) :
    AgreeOnWritten (a.emit bs) (b.emit bs) :=
  { h with out := congrArg (· ++ bs) h.out }

theorem AgreeOnWritten.setState {a b : State} (h : AgreeOnWritten a b) (v : Word) :
    AgreeOnWritten (a.setState v) (b.setState v) :=
  { h with state := fun _ => rfl }

/-- A construction writes the whole engine, so it leaves no difference there (R108). -/
theorem AgreeOnWritten.construct {a b : State} (h : AgreeOnWritten a b) (p sd : Word) :
    AgreeOnWritten (a.construct p sd) (b.construct p sd) :=
  { h with
    mode := rfl
    constructed := rfl
    poly := fun _ => rfl
    seed := fun _ => rfl
    table := fun _ => rfl
    state := fun _ => rfl
    errWord := nofun
    errCp := nofun }

/-- A fault writes no element of the engine, so what is written there after it was written before (R202). -/
theorem Inv.engineWritten_of_raise {s : State} (h : Inv s) {c : Cause} {w : Word} (hm : s.mode ≠ .faulted)
    (hw : (s.raise c w).engineWritten = true) : s.engineWritten = true := by
  have hconstructed : s.constructed = true := hw
  cases hmode : s.mode with
  | faulted => exact absurd hmode hm
  | ready => exact State.engineWritten_ready hmode
  | unconfigured => cases (h.unconfigured_unbuilt hmode).symm.trans hconstructed

/-- A fault records the same word, and writes no element of the engine (R202). -/
theorem AgreeOnWritten.raise {a b : State} (h : AgreeOnWritten a b) (hinv : Inv a) (hm : a.mode ≠ .faulted) (c : Cause)
    (w : Word) : AgreeOnWritten (a.raise c w) (b.raise c w) :=
  { h with
    mode := rfl
    cause := rfl
    cp := congrArg (· + 1) h.cp
    poly := fun hw => h.poly (hinv.engineWritten_of_raise hm hw)
    seed := fun hw => h.seed (hinv.engineWritten_of_raise hm hw)
    table := fun hw => h.table (hinv.engineWritten_of_raise hm hw)
    state := fun hw => h.state (hinv.engineWritten_of_raise hm hw)
    errWord := fun _ => rfl
    errCp := fun _ => h.cp }

/-! ## Answers of commands, steps and runs -/

/-- Two answers that differ at most in the values of unwritten elements. -/
inductive SameAnswer : Host.Outcome State Fault Refusal → Host.Outcome State Fault Refusal → Prop
  | next {a b : State} (h : AgreeOnWritten a b) : SameAnswer (.next a) (.next b)
  | fault (r : Fault) : SameAnswer (.fault r) (.fault r)

/-- Construction commands answer alike, if they do so outside FAULTED. -/
theorem whenAccepting_sameAnswer {a b : State} (h : AgreeOnWritten a b) {ka kb : Host.Outcome State Fault Refusal}
    (hk : SameAnswer ka kb) : SameAnswer (whenAccepting a ka) (whenAccepting b kb) := by
  by_cases hm : a.mode = .faulted
  · rw [whenAccepting_faulted hm, whenAccepting_faulted (h.mode ▸ hm)]
    exact .fault _
  · rwa [whenAccepting_accepts hm, whenAccepting_accepts (h.mode ▸ hm)]

/-- Commands accepted in READY alone answer alike, if they do so there: in UNCONFIGURED both fault. -/
theorem whenReady_sameAnswer {a b : State} (h : AgreeOnWritten a b) (hinv : Inv a) (w : Word)
    {ka kb : Host.Outcome State Fault Refusal} (hk : a.mode = .ready → SameAnswer ka kb) :
    SameAnswer (whenReady w a ka) (whenReady w b kb) := by
  cases hm : a.mode with
  | faulted =>
    rw [whenReady_faulted hm, whenReady_faulted (h.mode ▸ hm)]
    exact .fault _
  | unconfigured =>
    rw [whenReady_unconfigured hm, whenReady_unconfigured (h.mode ▸ hm)]
    exact .next (h.raise hinv (by simp [hm]) _ _)
  | ready =>
    rw [whenReady_ready hm, whenReady_ready (h.mode ▸ hm)]
    exact hk hm

/-- A command answers alike: what it reads is written where it executes (R35). -/
theorem exec_sameAnswer {a b : State} (h : AgreeOnWritten a b) (hinv : Inv a) (i : Instr) :
    SameAnswer (exec i a) (exec i b) := by
  have hwritten (hm : a.mode = .ready) : a.engineWritten = true := State.engineWritten_ready hm
  cases i with
  | new | newp | newps => exact whenAccepting_sameAnswer h (.next ((h.construct _ _).advance _))
  | upd c =>
    refine whenReady_sameAnswer h hinv _ fun hm => .next ?_
    rw [h.table (hwritten hm), h.state (hwritten hm)]
    exact (h.setState _).advance _
  | fin =>
    refine whenReady_sameAnswer h hinv _ fun hm => .next ?_
    rw [h.state (hwritten hm)]
    exact (h.emit _).advance _
  | rst =>
    refine whenReady_sameAnswer h hinv _ fun hm => .next ?_
    rw [h.seed (hwritten hm)]
    exact (h.setState _).advance _
  | tabrd k =>
    refine whenReady_sameAnswer h hinv _ fun hm => .next ?_
    rw [h.table (hwritten hm)]
    exact (h.emit _).advance _

/-- A step answers alike: both states have the same pending words. -/
theorem step_sameAnswer {a b : State} (h : AgreeOnWritten a b) (hinv : Inv a) : SameAnswer (step a) (step b) := by
  have hlegal : b.cause.toNat < Config.firstReservedCause := h.cause ▸ hinv.cause_legal
  by_cases hm : a.mode = .faulted
  · rw [step_faulted hm hinv.cause_legal, step_faulted (h.mode ▸ hm) hlegal]
    exact .fault _
  · rw [step_of_accepting ⟨hm, hinv.cause_legal⟩, step_of_accepting ⟨h.mode ▸ hm, hlegal⟩, h.pending]
    cases decode b.pending with
    | noWord => exact .fault _
    | incomplete => exact .fault _
    | rejected why w => exact .next (h.raise hinv hm _ w)
    | command i rest => exact exec_sameAnswer h hinv i

/-- A run answers alike, step by step. -/
theorem run_sameAnswer {a b : State} (h : AgreeOnWritten a b) (hinv : Inv a) (n : Nat) :
    SameAnswer (Host.Core.run core n a) (Host.Core.run core n b) := by
  induction n generalizing a b with
  | zero => exact .next h
  | succ n ih =>
    have hstep := step_sameAnswer h hinv
    generalize ha : step a = x, hb : step b = y at hstep
    cases hstep with
    | next h' =>
      rw [run_succ_of_next ha, run_succ_of_next hb]
      exact ih h' (hinv.step ha)
    | fault r =>
      rw [run_succ_of_fault ha, run_succ_of_fault hb]
      exact .fault r

/-! ## What the host sees (R33, R238) -/

theorem AgreeOnWritten.observation {a b : State} (h : AgreeOnWritten a b) : observation a = observation b := by
  rw [Machine.observation, Machine.observation, statusPort, statusPort, statusCfg, statusCfg, statusFault, statusFault,
    h.out, h.mode, h.cause]

theorem AgreeOnWritten.errWordPort {a b : State} (h : AgreeOnWritten a b) : errWordPort a = errWordPort b := by
  by_cases hm : a.mode = .faulted
  · rw [errWordPort_faulted hm, errWordPort_faulted (h.mode ▸ hm)]
    exact h.errWord ((statusFault_iff a).2 hm)
  · rw [errWordPort_not_faulted hm, errWordPort_not_faulted (h.mode ▸ hm)]

/-! ## The statement of 10_state.md section 8 -/

/-- Settles O53: a run never reads an unwritten element, and the ports show none. -/
theorem unwrittenValuesAreNeverSeen : Obligations.UnwrittenValuesAreNeverSeen := by
  intro n a b hinv _ h
  have hrun := run_sameAnswer h hinv n
  generalize Host.Core.run core n a = x, Host.Core.run core n b = y at hrun ⊢
  cases hrun with
  | next h' =>
    refine ⟨?_, nofun, nofun⟩
    rintro _ ⟨⟩
    exact ⟨_, rfl, h', h'.observation, h'.errWordPort⟩
  | fault r => exact ⟨nofun, fun _ hr => hr, nofun⟩

end Sys2Proof.Machine
